-- ==== Sys2Proof/Word.lean ====
section
/-! DEFINITION. The word types of the block (spec/00_scope.md R5, R6). -/

namespace Sys2Proof

/-- One exchanged byte, one frame byte, one register address, one opcode (R5: `DATA_W`, `ADDR_W`, `OPC_W` are 8). -/
abbrev Byte := BitVec 8

/-- One host word (R5: `HOST_W` is 32). -/
abbrev Word := BitVec 32

end Sys2Proof
end

