-- ==== Sys2Proof/Syntax.lean ====
section
/-! DEFINITION. What the host can ask of the block (30_encoding.md R46 to R49) and which agent moves next (10_state.md R10). -/

namespace Sys2Proof

/-- The closed set of nine command opcodes (00_scope.md R9, 30_encoding.md R50). -/
inductive Opcode where
  | reset | read | readRx | write | writeRx | requestToSend | readStatus | rxStatus | bitModify
deriving DecidableEq, Repr

/-- One host operation: one constructor per row of spec/opcode_table.json, and `ctrlNoop` for the CTRL word
with bits 1:0 = 0, which has no row (R48, R92; log entry 5).

A CMD row carries all the fields of R47, also those its command ignores (R56): the latch stores them (R19). -/
inductive Instr where
  /-- RESET (R74): CMD write, OP = 0xC0. -/
  | reset (addr arg0 arg1 : Byte)
  /-- READ (R76): CMD write, OP = 0x03. -/
  | read (addr arg0 arg1 : Byte)
  /-- WRITE (R77): CMD write, OP = 0x02; `arg0` is the value. -/
  | write (addr arg0 arg1 : Byte)
  /-- BIT_MODIFY (R78): CMD write, OP = 0x05; `arg0` is the mask and `arg1` the data. -/
  | bitModify (addr arg0 arg1 : Byte)
  /-- READ_STATUS (R79): CMD write, OP = 0xA0. -/
  | readStatus (addr arg0 arg1 : Byte)
  /-- RX_STATUS (R80): CMD write, OP = 0xB0. -/
  | rxStatus (addr arg0 arg1 : Byte)
  /-- CMD_REJECT_READ_RX (R84): CMD write, OP = 0x90. -/
  | cmdRejectReadRx (addr arg0 arg1 : Byte)
  /-- CMD_REJECT_WRITE_RX (R84): CMD write, OP = 0x40. -/
  | cmdRejectWriteRx (addr arg0 arg1 : Byte)
  /-- CMD_REJECT_REQUEST_TO_SEND (R84): CMD write, OP = 0x80. -/
  | cmdRejectRequestToSend (addr arg0 arg1 : Byte)
  /-- CMD_REJECT_OTHER (R84): CMD write, OP outside the nine opcodes (247 values). -/
  | cmdRejectOther (op addr arg0 arg1 : Byte)
  /-- INIT (R92, R93): CTRL write with bit 0 set; `clr` is bit 1, `ignored` is bits 31:2 (R57). -/
  | init (clr : Bool) (ignored : BitVec 30)
  /-- CLR_ERR (R97): CTRL write with bits 1:0 = 0b10. With both bits set the word is `init true`. -/
  | clrErr (ignored : BitVec 30)
  /-- CTRL write with bits 1:0 = 0b00 (R48, R92), which does nothing. -/
  | ctrlNoop (ignored : BitVec 30)
  /-- RD_STATUS (R87): 32-bit read of offset 0x4. -/
  | rdStatus
  /-- HAS_PENDING_EVENT (R86): a read of offset 0x4 of which the host keeps bit 2 (R59 `pending`). -/
  | hasPendingEvent
  /-- RD_RESULT (R88): 32-bit read of offset 0x8. -/
  | rdResult
  /-- RD_CMD (R89): 32-bit read of offset 0x0. -/
  | rdCmd
  /-- RD_CTRL (R89): 32-bit read of offset 0xC. -/
  | rdCtrl
  /-- WR_STATUS (R90): 32-bit write of offset 0x4. -/
  | wrStatus (w : Word)
  /-- WR_RESULT (R90): 32-bit write of offset 0x8. -/
  | wrResult (w : Word)
deriving DecidableEq, Repr

/-- The direction of a host access. -/
inductive HostDir where
  | read | write
deriving DecidableEq, Repr

/-- The width of a host access; only 32 bits is inside the interface's precondition (R33). -/
inductive HostWidth where
  | w8 | w16 | w32
deriving DecidableEq, Repr

/-- One access at the block's host port (R11: 32-bit data, 4-bit byte offset). A read carries no data. -/
structure HostAccess where
  dir    : HostDir
  width  : HostWidth
  offset : BitVec 4
  data   : Word
deriving DecidableEq, Repr

/-- What the host does in one step: a plain access, or the pseudo-instruction `pending` of R59, which is the read of
offset 0x4 with bit 2 kept (R86; log entry 3). -/
inductive HostRequest where
  | access (a : HostAccess)
  | pending
deriving DecidableEq, Repr

/-- The four registers of the window (R31). -/
inductive WindowReg where
  | cmd | status | result | ctrl
deriving DecidableEq, Repr

/-- Why a host access is no operation of the interface (R33). -/
inductive DecodeError where
  /-- An access of 8 or 16 bits. -/
  | narrow (width : HostWidth)
  /-- An offset that is not a multiple of 4. -/
  | misaligned (offset : BitVec 4)
deriving DecidableEq, Repr

/-- A host access at a platform address (R7 `MemRead`, `MemWrite`; R38). -/
structure MemAccess where
  dir     : HostDir
  width   : HostWidth
  address : Nat
  data    : Word
deriving DecidableEq, Repr

/-- What drives the interrupt pin (R11): with nobody driving it, the pull-up makes it read 1. -/
inductive IntLine where
  | low | high | undriven
deriving DecidableEq, Repr

/-- Who moves next, with the values the environment supplies to that step (R10). -/
inductive Turn where
  /-- The host makes a request at the block's port while `line` is on the interrupt pin (R86). -/
  | host (request : HostRequest) (line : IntLine)
  /-- The host makes an access at a platform address (R38). -/
  | memory (access : MemAccess) (line : IntLine)
  /-- The sequencer (ASSERT, DEASSERT, INIT_LINES, INIT_XPORT). -/
  | sequencer
  /-- The transport completes the exchange in progress; bit i of `miso` is the level of the pin at the rising
  edge of bit i (R61, R64). -/
  | transport (miso : Byte)
  /-- The settle timer ends SETTLE (R75). -/
  | settleTimer
  /-- The reset input takes the given level (R114); `false` is low, asserted. -/
  | resetPin (level : Bool)
deriving DecidableEq, Repr, Inhabited

end Sys2Proof
end

