-- ==== Sys2Proof/Config.lean ====
section
/-! DEFINITION. What is fixed for the machine (00_scope.md R5) and the free values the spec leaves open. -/

namespace Sys2Proof

/-- The filler byte (R5, R50). -/
def Config.filler : Byte := 0xFF#8

/-- `BASE` is open and a multiple of 16 (R5, R38): this is its quotient by 16. No value is assumed (log entry 9). -/
opaque Config.baseBlock : Nat

/-- The base address of the host register window (R5, R38), a multiple of 16. -/
def Config.base : Nat := 16 * Config.baseBlock

/-- The clock divider `SPI_CLK_DIV`, open (R5, D12). No step reads it (R126). -/
opaque Config.spiClkDiv : Nat

/-- The peripheral's reset settle time (R5, 93_implementation_defined.md U6). No value is assumed. -/
opaque Config.peripheralSettle : Nat

/-- By how much the block waits longer than the peripheral needs. No value is assumed. -/
opaque Config.settleMargin : Nat

/-- `SETTLE_TIME`, open, at least the peripheral's reset settle time (R5, U6). No step reads it (R126). -/
def Config.settleTime : Nat := Config.peripheralSettle + Config.settleMargin

/-- The free value behind R10 'any enabled step of any agent may be taken next': the n-th turn where the agenda names
none, with the environment's draws in it (log entry 1). Nothing constrains it. -/
opaque Config.freeTurn : Nat → Turn

end Sys2Proof
end

