-- ==== Sys2Proof/Machine/Opcodes.lean ====
section
/-! DEFINITION. The command opcode constants and the OP decode (30_encoding.md R50, R51). -/

namespace Sys2Proof

/-- The opcode values of R50. -/
def Opcode.byte : Opcode → Byte
  | .reset         => 0xC0#8
  | .read          => 0x03#8
  | .readRx        => 0x90#8
  | .write         => 0x02#8
  | .writeRx       => 0x40#8
  | .requestToSend => 0x80#8
  | .readStatus    => 0xA0#8
  | .rxStatus      => 0xB0#8
  | .bitModify     => 0x05#8

/-- The opcode a byte names, by an exact match of all 8 bits (R51). -/
def opcodeOf (b : Byte) : Option Opcode :=
  if b = Opcode.byte .reset then some .reset
  else if b = Opcode.byte .read then some .read
  else if b = Opcode.byte .write then some .write
  else if b = Opcode.byte .bitModify then some .bitModify
  else if b = Opcode.byte .readStatus then some .readStatus
  else if b = Opcode.byte .rxStatus then some .rxStatus
  else if b = Opcode.byte .readRx then some .readRx
  else if b = Opcode.byte .writeRx then some .writeRx
  else if b = Opcode.byte .requestToSend then some .requestToSend
  else none

/-- SUPPORTED (R51): the six opcodes that have a frame. -/
def supportedOps : List Byte := [0xC0#8, 0x03#8, 0x02#8, 0x05#8, 0xA0#8, 0xB0#8]

/-- Whether OP is in SUPPORTED (R51). -/
def supported (op : Byte) : Bool := supportedOps.contains op

end Sys2Proof
end

