-- ==== Sys2Proof/WellFormed.lean ====
section
/-! DEFINITION. Which terms of `Instr` are host operations in their one spelling. -/

namespace Sys2Proof

/-- The one check: the OP of CMD_REJECT_OTHER is none of the nine opcodes, whose words belong to other rows (R50, R84). -/
def Instr.wellFormed : Instr → Bool
  | .reset _ _ _ => true
  | .read _ _ _ => true
  | .write _ _ _ => true
  | .bitModify _ _ _ => true
  | .readStatus _ _ _ => true
  | .rxStatus _ _ _ => true
  | .cmdRejectReadRx _ _ _ => true
  | .cmdRejectWriteRx _ _ _ => true
  | .cmdRejectRequestToSend _ _ _ => true
  | .cmdRejectOther op _ _ _ => (opcodeOf op).isNone
  | .init _ _ => true
  | .clrErr _ => true
  | .ctrlNoop _ => true
  | .rdStatus => true
  | .hasPendingEvent => true
  | .rdResult => true
  | .rdCmd => true
  | .rdCtrl => true
  | .wrStatus _ => true
  | .wrResult _ => true

/-- `Instr.wellFormed` as a proposition. -/
abbrev Instr.WellFormed (i : Instr) : Prop := i.wellFormed = true

end Sys2Proof
end

