-- ==== Sys2Proof/Decode.lean ====
section
/-! DEFINITION. From a host access to the operation it is (30_encoding.md R46 to R51), and back. -/

namespace Sys2Proof

/-- OP = w[7:0] (R47). -/
def cmdOp (w : Word) : Byte := w.extractLsb' 0 8

/-- ADDR = w[15:8] (R47). -/
def cmdAddr (w : Word) : Byte := w.extractLsb' 8 8

/-- ARG0 = w[23:16] (R47). -/
def cmdArg0 (w : Word) : Byte := w.extractLsb' 16 8

/-- ARG1 = w[31:24] (R47). -/
def cmdArg1 (w : Word) : Byte := w.extractLsb' 24 8

/-- The register at a window offset (R31); an offset that is no multiple of 4 has none (R33). -/
def windowReg (offset : BitVec 4) : Option WindowReg :=
  if offset = 0x0#4 then some .cmd
  else if offset = 0x4#4 then some .status
  else if offset = 0x8#4 then some .result
  else if offset = 0xC#4 then some .ctrl
  else none

/-- The row a CMD word belongs to, by OP alone (R51, R55). -/
def decodeCmd (w : Word) : Instr :=
  match opcodeOf (cmdOp w) with
  | some .reset         => .reset (cmdAddr w) (cmdArg0 w) (cmdArg1 w)
  | some .read          => .read (cmdAddr w) (cmdArg0 w) (cmdArg1 w)
  | some .write         => .write (cmdAddr w) (cmdArg0 w) (cmdArg1 w)
  | some .bitModify     => .bitModify (cmdAddr w) (cmdArg0 w) (cmdArg1 w)
  | some .readStatus    => .readStatus (cmdAddr w) (cmdArg0 w) (cmdArg1 w)
  | some .rxStatus      => .rxStatus (cmdAddr w) (cmdArg0 w) (cmdArg1 w)
  | some .readRx        => .cmdRejectReadRx (cmdAddr w) (cmdArg0 w) (cmdArg1 w)
  | some .writeRx       => .cmdRejectWriteRx (cmdAddr w) (cmdArg0 w) (cmdArg1 w)
  | some .requestToSend => .cmdRejectRequestToSend (cmdAddr w) (cmdArg0 w) (cmdArg1 w)
  | none                => .cmdRejectOther (cmdOp w) (cmdAddr w) (cmdArg0 w) (cmdArg1 w)

/-- The row a CTRL word belongs to: bit 0 is INIT, bit 1 is CLR_ERR (R48). -/
def decodeCtrl (w : Word) : Instr :=
  if w.getLsbD 0 then .init (w.getLsbD 1) (w.extractLsb' 2 30)
  else if w.getLsbD 1 then .clrErr (w.extractLsb' 2 30)
  else .ctrlNoop (w.extractLsb' 2 30)

/-- Host operation decode by direction and register, total over the aligned 32-bit accesses (R49). -/
def decodeAt (dir : HostDir) (reg : WindowReg) (w : Word) : Instr :=
  match dir, reg with
  | .write, .cmd    => decodeCmd w
  | .write, .status => .wrStatus w
  | .write, .result => .wrResult w
  | .write, .ctrl   => decodeCtrl w
  | .read,  .cmd    => .rdCmd
  | .read,  .status => .rdStatus
  | .read,  .result => .rdResult
  | .read,  .ctrl   => .rdCtrl

/-- An access is decoded when it is 32 bits wide at an offset that is a multiple of 4; any other is refused (R33). -/
def decodeAccess (a : HostAccess) : Except DecodeError Instr :=
  if a.width = .w32 then
    match windowReg a.offset with
    | some reg => .ok (decodeAt a.dir reg a.data)
    | none => .error (.misaligned a.offset)
  else .error (.narrow a.width)

/-- The operation a host request is (R49, R86). -/
def decode : HostRequest → Except DecodeError Instr
  | .access a => decodeAccess a
  | .pending  => .ok .hasPendingEvent

/-! ## The encoder -/

/-- A CMD word from its fields, most significant first (R47, R58). -/
def cmdWord (op addr arg0 arg1 : Byte) : Word := arg1 ++ arg0 ++ addr ++ op

/-- A CTRL word from its fields (R48). -/
def ctrlWord (init clr : Bool) (ignored : BitVec 30) : Word := ignored ++ BitVec.ofBool clr ++ BitVec.ofBool init

/-- `HostWrite(off, w)` (R7). -/
def hostWrite (offset : BitVec 4) (w : Word) : HostRequest :=
  .access { dir := .write, width := .w32, offset := offset, data := w }

/-- `HostRead(off)` (R7). -/
def hostRead (offset : BitVec 4) : HostRequest :=
  .access { dir := .read, width := .w32, offset := offset, data := 0#32 }

/-- The write to CMD with opcode `o`. -/
def encodeCmd (op addr arg0 arg1 : Byte) : HostRequest := hostWrite 0x0#4 (cmdWord op addr arg0 arg1)

/-- The host request of an operation (R46, R49, R58). -/
def encode : Instr → HostRequest
  | .reset a v d => encodeCmd (Opcode.byte .reset) a v d
  | .read a v d => encodeCmd (Opcode.byte .read) a v d
  | .write a v d => encodeCmd (Opcode.byte .write) a v d
  | .bitModify a v d => encodeCmd (Opcode.byte .bitModify) a v d
  | .readStatus a v d => encodeCmd (Opcode.byte .readStatus) a v d
  | .rxStatus a v d => encodeCmd (Opcode.byte .rxStatus) a v d
  | .cmdRejectReadRx a v d => encodeCmd (Opcode.byte .readRx) a v d
  | .cmdRejectWriteRx a v d => encodeCmd (Opcode.byte .writeRx) a v d
  | .cmdRejectRequestToSend a v d => encodeCmd (Opcode.byte .requestToSend) a v d
  | .cmdRejectOther op a v d => encodeCmd op a v d
  | .init clr ign => hostWrite 0xC#4 (ctrlWord true clr ign)
  | .clrErr ign => hostWrite 0xC#4 (ctrlWord false true ign)
  | .ctrlNoop ign => hostWrite 0xC#4 (ctrlWord false false ign)
  | .rdStatus => hostRead 0x4#4
  | .hasPendingEvent => .pending
  | .rdResult => hostRead 0x8#4
  | .rdCmd => hostRead 0x0#4
  | .rdCtrl => hostRead 0xC#4
  | .wrStatus w => hostWrite 0x4#4 w
  | .wrResult w => hostWrite 0x8#4 w

/-- The access a request makes on the host bus: `pending` reads offset 0x4 (R59, R86). -/
def HostRequest.busAccess : HostRequest → HostAccess
  | .access a => a
  | .pending  => { dir := .read, width := .w32, offset := 0x4#4, data := 0#32 }

/-! ## Platform addresses -/

/-- The window offset of a platform address, where it lies in the window (R31, R38). -/
def windowOffset (address : Nat) : Option (BitVec 4) :=
  if Config.base ≤ address ∧ address < Config.base + 16 then some (BitVec.ofNat 4 (address - Config.base)) else none

/-- The port access a platform access makes; one outside the window does not reach the block (R7, R38). -/
def portAccess (m : MemAccess) : Option HostAccess :=
  match windowOffset m.address with
  | some off => some { dir := m.dir, width := m.width, offset := off, data := m.data }
  | none => none

/-! ## The numbering of spec/opcode_table.json (log entry 4) -/

/-- The request a number of more than 32 bits stands for, in the model's own numbering of whole accesses: bits 31:0 the
word, 35:32 the offset, 36 the direction (1 is a read), 37 the poll `pending` (log entry 4). -/
def numberedRequest (w : Nat) : HostRequest :=
  if w / 2 ^ 37 % 2 = 1 then .pending
  else if w / 2 ^ 36 % 2 = 1 then hostRead (BitVec.ofNat 4 (w / 2 ^ 32))
  else hostWrite (BitVec.ofNat 4 (w / 2 ^ 32)) (BitVec.ofNat 32 w)

/-- The request a number of the opcode table stands for. A CMD or CTRL row numbers its word, a read row its offset, and the
number alone does not say which. A number that is an opcode of R50 is a CMD word, 1 is the CTRL word of INIT,
0, 4, 8 and 12 in one byte are the read rows, and the rest are CMD words (log entry 4). -/
def tableRequest (nbits w : Nat) : HostRequest :=
  if 32 < nbits then numberedRequest w
  else if (opcodeOf (BitVec.ofNat 8 w)).isSome then hostWrite 0x0#4 (BitVec.ofNat 32 w)
  else if w = 1 then hostWrite 0xC#4 0x00000001#32
  else if nbits ≤ 8 ∧ (w = 0 ∨ w = 4 ∨ w = 8 ∨ w = 12) then hostRead (BitVec.ofNat 4 w)
  else hostWrite 0x0#4 (BitVec.ofNat 32 w)

/-- The operation the decoder reads from a number of the opcode table (log entry 4). -/
def decodeTableWord (nbits w : Nat) : Option Instr :=
  match decode (tableRequest nbits w) with
  | .ok i => some i
  | .error _ => none

end Sys2Proof
end

