-- ==== Sys2Proof/Machine/State.lean ====
section
/-! DEFINITION. The state of the block (10_state.md), as plain data, and the state after reset (R29, R115). -/

namespace Sys2Proof.Machine

/-- The sequencer's phases (R20). -/
inductive Phase where
  | idle | initLines | initXport | assert | xfer | deassert | settle
deriving DecidableEq, Repr

/-- The settle timer (R28). Its width and count are the implementation's, and no rule reads them (R126; log entry 10). -/
inductive SettleTimer where
  | stopped | running
deriving DecidableEq, Repr

/-- The pull-up of `int_n`: always on, at the pad (R11, R29, D10), so it has one value. -/
inductive PullUp where
  | enabled
deriving DecidableEq, Repr

/-- The three causes of a rejection (R100 to R103). -/
inductive ErrKind where
  | busy | notReady | badOp
deriving DecidableEq, Repr

/-- The events of the bus trace (R30). -/
inductive Event where
  | csLow
  | xchg (tx rx : Byte)
  | csHigh
  | reject (kind : ErrKind)
deriving DecidableEq, Repr

/-- Every element of state of R29 but the trace. A line level or a flag is `true` for 1. -/
structure Block where
  /-- The chip-select line, active low (R65, R66). -/
  csN         : Bool
  /-- The SPI clock line (R61, R71). -/
  sck         : Bool
  /-- The data-out line (R61, R71). -/
  mosi        : Bool
  /-- The pull-up of the interrupt pin (R11). -/
  pullUp      : PullUp
  /-- The sequencer's phase (R20). -/
  phase       : Phase
  /-- The command latch (R19). -/
  op          : Byte
  addr        : Byte
  arg0        : Byte
  arg1        : Byte
  /-- The byte index into the frame (R13, R21). -/
  k           : BitVec 3
  /-- The capture register (R21). -/
  cap         : Byte
  /-- The byte RESULT shows (R16). -/
  result      : Byte
  /-- INIT has finished (R22). -/
  ready       : Bool
  /-- `result` is the reply to the last accepted command (R23). -/
  rvalid      : Bool
  /-- The sticky error flags (R24). -/
  errBusy     : Bool
  errNotReady : Bool
  errBadOp    : Bool
  /-- The transport is configured (R25). -/
  xportEn     : Bool
  /-- The transfer-complete flag (R26). -/
  xferDone    : Bool
  /-- The Reset frame in progress belongs to INIT (R27). -/
  initMode    : Bool
  /-- The settle timer (R28). -/
  settle      : SettleTimer
deriving DecidableEq, Repr

/-- The reset value of every element (R29). -/
def Block.reset : Block where
  csN         := true
  sck         := false
  mosi        := false
  pullUp      := .enabled
  phase       := .idle
  op          := 0x00#8
  addr        := 0x00#8
  arg0        := 0x00#8
  arg1        := 0x00#8
  k           := 0#3
  cap         := 0x00#8
  result      := 0x00#8
  ready       := false
  rvalid      := false
  errBusy     := false
  errNotReady := false
  errBadOp    := false
  xportEn     := false
  xferDone    := false
  initMode    := false
  settle      := .stopped

/-- The machine: the block, what the spec observes of it, the levels at its input pins, and who moves next. -/
structure State where
  /-- The hardware's own state (R29). -/
  block   : Block
  /-- The bus trace, oldest event first (R30). -/
  trace   : List Event
  /-- The words the host's reads have returned, oldest first: the read data of the host bus (R11, R58; log entry 15). -/
  reads   : List Word
  /-- The reset pin; `false` is asserted (R11, R114). -/
  rstN    : Bool
  /-- What drives the interrupt pin at the host access in progress (R11, R86). -/
  intLine : IntLine
  /-- The turns to come: which agent moves next, and what the environment supplies (R10; log entry 1). -/
  agenda  : List Turn
  /-- How many free turns have been drawn (R10; log entry 1). -/
  draws   : Nat
deriving DecidableEq, Repr

/-- Why the machine stops. -/
inductive Fault where
  /-- Raised by the transport's completion step (Machine/Transport.lean) in a state that says an exchange is in progress at
  an index for which R53 gives no byte. The invariants of R20, R25 and R54 exclude such a state and no run from reset
  reaches one. Safe: the model stops (log entry 12). -/
  | noFrameByte
deriving DecidableEq, Repr

/-- Why a host request has no meaning (R8 'refusal'). -/
inductive Refusal where
  /-- Raised by a dispatch arm whose instruction has no meaning yet. Safe: the model stops. -/
  | notModelled (mnemonic : String)
  /-- Raised by a host turn whose access is 8 or 16 bits wide (R33). Safe: the model stops. -/
  | narrowAccess (width : HostWidth)
  /-- Raised by a host turn whose offset is not a multiple of 4 (R33). Safe: the model stops. -/
  | misalignedAccess (offset : BitVec 4)
deriving DecidableEq, Repr

/-- The machine right after reset (R29, R115): the block at its reset values, the trace empty, the reset pin high again. The
agenda, the draws, the reads and the drive of the interrupt pin are the model's own (log entries 14 and 15). -/
def State.reset : State where
  block   := Block.reset
  trace   := []
  reads   := []
  rstN    := true
  intLine := .undriven
  agenda  := []
  draws   := 0

end Sys2Proof.Machine
end

