-- ==== Sys2Proof/Machine/Operands.lean ====
section
/-! DEFINITION. What a command sends and which reply it keeps (30_encoding.md R52 to R54). -/

namespace Sys2Proof.Machine

/-- The frame function of R53. An OP outside SUPPORTED has no frame (R55). -/
def frame (op addr arg0 arg1 : Byte) : List Byte :=
  if op = 0xC0#8 then [0xC0#8]
  else if op = 0x03#8 then [0x03#8, addr, Config.filler]
  else if op = 0x02#8 then [0x02#8, addr, arg0]
  else if op = 0x05#8 then [0x05#8, addr, arg0, arg1]
  else if op = 0xA0#8 then [0xA0#8, Config.filler]
  else if op = 0xB0#8 then [0xB0#8, Config.filler]
  else []

/-- The index of the exchange whose reply is kept (R53). -/
def capIdx (op : Byte) : Option Nat :=
  if op = 0x03#8 then some 2
  else if op = 0xA0#8 ∨ op = 0xB0#8 then some 1
  else none

/-- The frame of the latched command (R19, R60). -/
def Block.frame (b : Block) : List Byte := Machine.frame b.op b.addr b.arg0 b.arg1

end Sys2Proof.Machine
end

