-- ==== Sys2Proof/Machine/Flags.lean ====
section
/-! DEFINITION. The words the host reads: STATUS with its bits, RESULT, and the two write-only registers (R15, R16, R86 to R89). -/

namespace Sys2Proof.Machine

/-- The level of the interrupt pin: with nobody driving it, the pull-up makes it read 1 (R11). -/
def intLevel (pullUp : PullUp) (line : IntLine) : Bool :=
  match line, pullUp with
  | .low, _ => false
  | .high, _ => true
  | .undriven, .enabled => true

/-- PEND = ~int_n, at the step of the read (R86). -/
def pend (s : State) : Bool := !intLevel s.block.pullUp s.intLine

/-- BUSY = (phase != IDLE) (R20). -/
def busy (b : Block) : Bool := decide (b.phase ≠ .idle)

/-- CS_ACTIVE = ~cs_n (R15). -/
def csActive (b : Block) : Bool := !b.csN

/-- reg[STATUS] (R15): the three error flags in bits 10:8, bits 7:5 zero, then CS_ACTIVE, RVALID, PEND, READY, BUSY. -/
def statusWord (s : State) : Word :=
  0#21 ++ BitVec.ofBool s.block.errBadOp ++ BitVec.ofBool s.block.errNotReady ++ BitVec.ofBool s.block.errBusy ++ 0#3
    ++ BitVec.ofBool (csActive s.block) ++ BitVec.ofBool s.block.rvalid ++ BitVec.ofBool (pend s)
    ++ BitVec.ofBool s.block.ready ++ BitVec.ofBool (busy s.block)

/-- reg[RESULT] = zext_32(result) (R16). -/
def resultWord (s : State) : Word := s.block.result.setWidth 32

/-- What a read of CMD or CTRL returns (R89). -/
def writeOnlyWord : Word := 0x00000000#32

/-- What the host keeps of the STATUS word in HAS_PENDING_EVENT: bit 2, as a word (R59, R86; log entry 3). -/
def pendingWord (s : State) : Word := (BitVec.ofBool ((statusWord s).getLsbD 2)).setWidth 32

end Sys2Proof.Machine
end

