-- ==== Sys2Proof/Machine/Ops.lean ====
section
/-! DEFINITION. The shared operations of the host's accesses: the read data, the trace, the rejection (the block's
exception, R100), its clearing (R97), and the acceptance of a command (R72) and of INIT (R93). -/

namespace Sys2Proof.Machine

/-- `emit(e)`: append an event to the bus trace (R7, R30). -/
def emit (e : Event) (s : State) : State := { s with trace := s.trace ++ [e] }

/-- A host read returns a word, and nothing else happens (R36). -/
def answer (w : Word) (s : State) : State := { s with reads := s.reads ++ [w] }

/-- Change the block alone. -/
def onBlock (f : Block → Block) (s : State) : State := { s with block := f s.block }

/-- The sticky flag of a rejection (R100). -/
def Block.setErr (kind : ErrKind) (b : Block) : Block :=
  match kind with
  | .busy     => { b with errBusy := true }
  | .notReady => { b with errNotReady := true }
  | .badOp    => { b with errBadOp := true }

/-- `raise Err(kind)` (R100): set the flag and record the rejection. Nothing else changes, and no control moves (R108). -/
def raise (kind : ErrKind) (s : State) : State := emit (.reject kind) (onBlock (Block.setErr kind) s)

/-- The three sticky flags cleared together (R97). -/
def Block.clearErrs (b : Block) : Block := { b with errBusy := false, errNotReady := false, errBadOp := false }

/-- ClrErr (R97): what stands in place of a return from an exception (R108). -/
def clearErrors (s : State) : State := onBlock Block.clearErrs s

/-- The block after an accepted CMD write (R72): the latch loaded, RVALID cleared, the frame about to start. -/
def Block.accept (op addr arg0 arg1 : Byte) (b : Block) : Block :=
  { b with op := op, addr := addr, arg0 := arg0, arg1 := arg1, rvalid := false, phase := .assert }

/-- CmdWrite (R72), with the priority of its checks (R104). -/
def cmdWrite (op addr arg0 arg1 : Byte) (s : State) : State :=
  if s.block.phase ≠ .idle then raise .busy s
  else if s.block.ready = false then raise .notReady s
  else if supported op = false then raise .badOp s
  else onBlock (Block.accept op addr arg0 arg1) s

/-- The block after an accepted INIT (R93). -/
def Block.acceptInit (b : Block) : Block :=
  { b with ready := false, rvalid := false, initMode := true, phase := .initLines }

/-- InitRequest (R93). -/
def initRequest (s : State) : State :=
  if s.block.phase ≠ .idle then raise .busy s else onBlock Block.acceptInit s

end Sys2Proof.Machine
end

