-- ==== Sys2Proof/Machine/Command.lean ====
section
/-! DEFINITION. The CMD rows: the six commands (41_command_protocol.md R74 to R80) and the four rejected rows (R84). Each is
the host's write; the frame it starts is sent by the steps of Machine/Sequencer.lean and Machine/Transport.lean. -/

namespace Sys2Proof.Machine

/-- RESET (R74). -/
def execReset (addr arg0 arg1 : Byte) (s : State) : Host.Outcome State Fault Refusal :=
  .next (cmdWrite (Opcode.byte .reset) addr arg0 arg1 s)

/-- READ (R76). -/
def execRead (addr arg0 arg1 : Byte) (s : State) : Host.Outcome State Fault Refusal :=
  .next (cmdWrite (Opcode.byte .read) addr arg0 arg1 s)

/-- WRITE (R77). -/
def execWrite (addr arg0 arg1 : Byte) (s : State) : Host.Outcome State Fault Refusal :=
  .next (cmdWrite (Opcode.byte .write) addr arg0 arg1 s)

/-- BIT_MODIFY (R78). -/
def execBitModify (addr arg0 arg1 : Byte) (s : State) : Host.Outcome State Fault Refusal :=
  .next (cmdWrite (Opcode.byte .bitModify) addr arg0 arg1 s)

/-- READ_STATUS (R79). -/
def execReadStatus (addr arg0 arg1 : Byte) (s : State) : Host.Outcome State Fault Refusal :=
  .next (cmdWrite (Opcode.byte .readStatus) addr arg0 arg1 s)

/-- RX_STATUS (R80). -/
def execRxStatus (addr arg0 arg1 : Byte) (s : State) : Host.Outcome State Fault Refusal :=
  .next (cmdWrite (Opcode.byte .rxStatus) addr arg0 arg1 s)

/-- CMD_REJECT_READ_RX (R84): no frame is given for READ_RX. -/
def execCmdRejectReadRx (addr arg0 arg1 : Byte) (s : State) : Host.Outcome State Fault Refusal :=
  .next (cmdWrite (Opcode.byte .readRx) addr arg0 arg1 s)

/-- CMD_REJECT_WRITE_RX (R84): no frame is given for WRITE_RX. -/
def execCmdRejectWriteRx (addr arg0 arg1 : Byte) (s : State) : Host.Outcome State Fault Refusal :=
  .next (cmdWrite (Opcode.byte .writeRx) addr arg0 arg1 s)

/-- CMD_REJECT_REQUEST_TO_SEND (R84): no frame is given for REQUEST_TO_SEND. -/
def execCmdRejectRequestToSend (addr arg0 arg1 : Byte) (s : State) : Host.Outcome State Fault Refusal :=
  .next (cmdWrite (Opcode.byte .requestToSend) addr arg0 arg1 s)

/-- CMD_REJECT_OTHER (R84): an OP outside the nine opcodes. -/
def execCmdRejectOther (op addr arg0 arg1 : Byte) (s : State) : Host.Outcome State Fault Refusal :=
  .next (cmdWrite op addr arg0 arg1 s)

end Sys2Proof.Machine
end

