-- ==== Sys2Proof/Machine/Control.lean ====
section
/-! DEFINITION. The CTRL rows (43_init_and_control.md R92, R93, R97). -/

namespace Sys2Proof.Machine

/-- INIT (R92, R93): ClrErr first where its bit is set too, then the request, in one step. -/
def execInit (clr : Bool) (_ignored : BitVec 30) (s : State) : Host.Outcome State Fault Refusal :=
  .next (initRequest (if clr then clearErrors s else s))

/-- CLR_ERR (R97), accepted in every phase. -/
def execClrErr (_ignored : BitVec 30) (s : State) : Host.Outcome State Fault Refusal := .next (clearErrors s)

/-- A CTRL word with bits 1:0 = 0b00 is a no-op (R48, R92). -/
def execCtrlNoop (_ignored : BitVec 30) (s : State) : Host.Outcome State Fault Refusal := .next s

end Sys2Proof.Machine
end

