-- ==== Sys2Proof/Machine/Window.lean ====
section
/-! DEFINITION. The reads of the window and the writes it ignores (42_status_and_interrupt.md R86 to R90). -/

namespace Sys2Proof.Machine

/-- RD_STATUS (R87). -/
def execRdStatus (s : State) : Host.Outcome State Fault Refusal := .next (answer (statusWord s) s)

/-- HAS_PENDING_EVENT (R86): the same read, of which the host keeps PEND. -/
def execHasPendingEvent (s : State) : Host.Outcome State Fault Refusal := .next (answer (pendingWord s) s)

/-- RD_RESULT (R88). -/
def execRdResult (s : State) : Host.Outcome State Fault Refusal := .next (answer (resultWord s) s)

/-- RD_CMD (R89). -/
def execRdCmd (s : State) : Host.Outcome State Fault Refusal := .next (answer writeOnlyWord s)

/-- RD_CTRL (R89). -/
def execRdCtrl (s : State) : Host.Outcome State Fault Refusal := .next (answer writeOnlyWord s)

/-- WR_STATUS (R90): ignored. -/
def execWrStatus (_w : Word) (s : State) : Host.Outcome State Fault Refusal := .next s

/-- WR_RESULT (R90): ignored. -/
def execWrResult (_w : Word) (s : State) : Host.Outcome State Fault Refusal := .next s

end Sys2Proof.Machine
end

