-- ==== Sys2Proof/Machine/Dispatch.lean ====
section
/-! DEFINITION. One arm per host operation. -/

namespace Sys2Proof.Machine

def exec (i : Instr) (s : State) : Host.Outcome State Fault Refusal :=
  match i with
  -- 41_command_protocol.md
  | .reset addr arg0 arg1 => Sys2Proof.Machine.execReset addr arg0 arg1 s
  | .read addr arg0 arg1 => Sys2Proof.Machine.execRead addr arg0 arg1 s
  | .write addr arg0 arg1 => Sys2Proof.Machine.execWrite addr arg0 arg1 s
  | .bitModify addr arg0 arg1 => Sys2Proof.Machine.execBitModify addr arg0 arg1 s
  | .readStatus addr arg0 arg1 => Sys2Proof.Machine.execReadStatus addr arg0 arg1 s
  | .rxStatus addr arg0 arg1 => Sys2Proof.Machine.execRxStatus addr arg0 arg1 s
  | .cmdRejectReadRx addr arg0 arg1 => Sys2Proof.Machine.execCmdRejectReadRx addr arg0 arg1 s
  | .cmdRejectWriteRx addr arg0 arg1 => Sys2Proof.Machine.execCmdRejectWriteRx addr arg0 arg1 s
  | .cmdRejectRequestToSend addr arg0 arg1 => Sys2Proof.Machine.execCmdRejectRequestToSend addr arg0 arg1 s
  | .cmdRejectOther op addr arg0 arg1 => Sys2Proof.Machine.execCmdRejectOther op addr arg0 arg1 s
  -- 43_init_and_control.md
  | .init clr ignored => Sys2Proof.Machine.execInit clr ignored s
  | .clrErr ignored => Sys2Proof.Machine.execClrErr ignored s
  | .ctrlNoop ignored => Sys2Proof.Machine.execCtrlNoop ignored s
  -- 42_status_and_interrupt.md
  | .rdStatus => Sys2Proof.Machine.execRdStatus s
  | .hasPendingEvent => Sys2Proof.Machine.execHasPendingEvent s
  | .rdResult => Sys2Proof.Machine.execRdResult s
  | .rdCmd => Sys2Proof.Machine.execRdCmd s
  | .rdCtrl => Sys2Proof.Machine.execRdCtrl s
  | .wrStatus w => Sys2Proof.Machine.execWrStatus w s
  | .wrResult w => Sys2Proof.Machine.execWrResult w s

end Sys2Proof.Machine
end

