-- ==== Sys2Proof/Machine/Reset.lean ====
section
/-! DEFINITION. The block reset (70_reset_and_hazards.md R114, R115). -/

namespace Sys2Proof.Machine

/-- The trace after the reset pin falls: a frame in progress ends with CS_HIGH at once (R30, R114). The trace is kept: it is the
observer's record, not hardware (log entry 6). -/
def resetTrace (s : State) : List Event := if s.block.csN then s.trace else s.trace ++ [.csHigh]

/-- `rst_n` falls (R114): every element of state takes its R29 value. -/
def assertReset (s : State) : State := { s with block := Block.reset, trace := resetTrace s, rstN := false }

/-- The reset pin takes a level (R114, R115). -/
def driveReset (level : Bool) (s : State) : State := if level then { s with rstN := true } else assertReset s

/-- While the pin is low, every element stays at its R29 value whatever else happens (R29, R114; log entry 8): `before` is the
state before the step, `after` what the step would make of it. -/
def holdInReset (before after : State) : State :=
  if before.rstN then after else { after with block := Block.reset, trace := before.trace }

/-- `holdInReset` on an outcome. -/
def held (before : State) (o : Host.Outcome State Fault Refusal) : Host.Outcome State Fault Refusal :=
  match o with
  | .next t => .next (holdInReset before t)
  | .fault r => .fault r
  | .refused r => .refused r

end Sys2Proof.Machine
end

