-- ==== Sys2Proof/Machine/Sequencer.lean ====
section
/-! DEFINITION. The steps of the sequencer and of the settle timer (R65, R66, R75, R94, R95). An agent that is not enabled
does nothing with its turn (log entry 2). -/

namespace Sys2Proof.Machine

/-- INIT_LINES (R94): steps 1 to 3 of the document's initialisation. -/
def Block.initLines (b : Block) : Block :=
  { b with csN := true, sck := false, mosi := false, phase := .initXport }

/-- INIT_XPORT (R95): the transport is configured and the Reset frame latched. -/
def Block.initXport (b : Block) : Block :=
  { b with xportEn := true, xferDone := false, op := 0xC0#8, phase := .assert }

/-- ASSERT (R65). Exchange 0 starts, so the transfer-complete flag is cleared (R26, R62). -/
def Block.assert (b : Block) : Block :=
  { b with csN := false, k := 0#3, xferDone := false, phase := .xfer }

/-- DEASSERT (R66): select is released. A capturing command loads RESULT and sets RVALID (R81). After a Reset frame comes
SETTLE with the settle timer started, after any other IDLE. -/
def Block.deassert (b : Block) : Block :=
  { b with
    csN    := true
    result := if (capIdx b.op).isSome then b.cap else b.result
    rvalid := if (capIdx b.op).isSome then true else b.rvalid
    phase  := if b.op = 0xC0#8 then .settle else .idle
    settle := if b.op = 0xC0#8 then .running else b.settle }

/-- The sequencer's step (R10 item 2). -/
def sequencerStep (s : State) : State :=
  match s.block.phase with
  | .initLines => onBlock Block.initLines s
  | .initXport => onBlock Block.initXport s
  | .assert    => emit .csLow (onBlock Block.assert s)
  | .deassert  => emit .csHigh (onBlock Block.deassert s)
  | .idle      => s
  | .xfer      => s
  | .settle    => s

/-- The end of SETTLE (R75). Where the Reset frame was INIT's it is the end of INIT: READY is set and `init_mode` goes back to
0 (R96). The timer stops (log entry 10). -/
def Block.endSettle (b : Block) : Block :=
  { b with
    phase    := .idle
    settle   := .stopped
    ready    := if b.initMode then true else b.ready
    initMode := false }

/-- The settle timer's step (R75). -/
def settleStep (s : State) : State :=
  if s.block.phase = .settle then onBlock Block.endSettle s else s

end Sys2Proof.Machine
end

