-- ==== Sys2Proof/Machine/Transport.lean ====
section
/-! DEFINITION. One exchange on the SPI port (40_transport_framing.md R60 to R62) and its completion step (R67). -/

namespace Sys2Proof.Machine

/-- The levels of the two lines the transport drives. -/
structure Pins where
  sck  : Bool
  mosi : Bool
deriving DecidableEq, Repr

/-- The shift engine in the middle of an exchange: the levels it has driven, oldest first, and the bits it has sampled. -/
structure Shift where
  wave : List Pins
  rx   : Byte
deriving DecidableEq, Repr

/-- One bit of an exchange (R61): drive `mosi <- tx[i]`, raise `sck` and sample `miso` on that edge, lower `sck`. The bit sampled
first ends as bit 7 (R34), so each sample enters at the low end. -/
def shiftBit (tx miso : Byte) (i : Nat) (x : Shift) : Shift where
  wave := x.wave ++ [⟨false, tx.getLsbD i⟩, ⟨true, tx.getLsbD i⟩, ⟨false, tx.getLsbD i⟩]
  rx   := x.rx <<< 1 ||| (BitVec.ofBool (miso.getLsbD i)).setWidth 8

/-- The bits n-1 down to 0 of an exchange, most significant first (R61). -/
def shiftBits (tx miso : Byte) : Nat → Shift → Shift
  | 0, x => x
  | n + 1, x => shiftBits tx miso n (shiftBit tx miso n x)

/-- A whole exchange (R61): bits 7 down to 0, and `mosi` back at 0 (R71). -/
def exchange (tx miso : Byte) : Shift :=
  let x := shiftBits tx miso 8 { wave := [], rx := 0x00#8 }
  { x with wave := x.wave ++ [⟨false, false⟩] }

/-- The levels the lines are left at. -/
def lastPins (wave : List Pins) : Pins := wave.getLast?.getD ⟨false, false⟩

/-- The levels of `mosi` at the rising edges of `sck`, in time order: what the peripheral samples (R61). -/
def risingEdges : Pins → List Pins → List Bool
  | _, [] => []
  | before, p :: rest => if before.sck = false ∧ p.sck = true then p.mosi :: risingEdges p rest else risingEdges p rest

/-- A byte from eight samples, the first of them its bit 7 (R34). -/
def assembleMsbFirst (samples : List Bool) : Byte :=
  samples.foldl (fun b x => b <<< 1 ||| (BitVec.ofBool x).setWidth 8) 0x00#8

/-- The block after the completion of exchange k with reply `rx` (R67). With another exchange to come, `xfer_done` is cleared
in the same step (R62). -/
def Block.complete (rx : Byte) (b : Block) : Block :=
  { b with
    cap      := if capIdx b.op = some b.k.toNat then rx else b.cap
    k        := b.k + 1#3
    xferDone := decide (b.k.toNat + 1 = b.frame.length)
    phase    := if b.k.toNat + 1 = b.frame.length then .deassert else .xfer }

/-- The lines as the exchange leaves them (R61, R71). -/
def Block.drive (p : Pins) (b : Block) : Block := { b with sck := p.sck, mosi := p.mosi }

/-- The completion of exchange k, whose byte is `frame(op, ...)[k]` (R60, R67). -/
def completeExchange (miso : Byte) (s : State) : Host.Outcome State Fault Refusal :=
  match s.block.frame[s.block.k.toNat]? with
  | some tx =>
    let x := exchange tx miso
    .next (emit (.xchg tx x.rx) (onBlock (fun b => (b.complete x.rx).drive (lastPins x.wave)) s))
  | none => .fault .noFrameByte

/-- The transport's step (R10 item 3): it is enabled in XFER only (R67). -/
def transportStep (miso : Byte) (s : State) : Host.Outcome State Fault Refusal :=
  if s.block.phase = .xfer then completeExchange miso s else .next s

end Sys2Proof.Machine
end

