-- ==== Sys2Proof/Machine/Turns.lean ====
section
/-! DEFINITION. Who moves next, and what it does (10_state.md R10, 20_memory.md R40). -/

namespace Sys2Proof.Machine

/-- The next turn: the agenda's first, or a free one (R10; log entry 1). -/
def nextTurn (s : State) : Turn :=
  match s.agenda with
  | t :: _ => t
  | [] => Config.freeTurn s.draws

/-- The state with that turn taken. -/
def takeTurn (s : State) : State :=
  match s.agenda with
  | _ :: rest => { s with agenda := rest }
  | [] => { s with draws := s.draws + 1 }

/-- The interrupt pin as it stands at the host's access (R86). -/
def sampleInt (line : IntLine) (s : State) : State := { s with intLine := line }

/-- The refusal of a request that is no operation of the interface (R33). -/
def refusalOf : DecodeError → Refusal
  | .narrow width => .narrowAccess width
  | .misaligned offset => .misalignedAccess offset

/-- A host request at the port: decoded and run in one step, or refused (R33, R40, R49). -/
def hostStep (r : HostRequest) (s : State) : Host.Outcome State Fault Refusal :=
  match decode r with
  | .ok i => held s (exec i s)
  | .error e => .refused (refusalOf e)

/-- A host access at a platform address: outside the window it does not reach the block (R38). -/
def memoryStep (m : MemAccess) (s : State) : Host.Outcome State Fault Refusal :=
  match portAccess m with
  | some a => hostStep (.access a) s
  | none => .next s

/-- One turn (R10). -/
def runTurn (t : Turn) (s : State) : Host.Outcome State Fault Refusal :=
  match t with
  | .host r line => hostStep r (sampleInt line s)
  | .memory m line => memoryStep m (sampleInt line s)
  | .sequencer => held s (.next (sequencerStep s))
  | .transport miso => held s (transportStep miso s)
  | .settleTimer => held s (.next (settleStep s))
  | .resetPin level => .next (driveReset level s)

/-- A host request placed as the very next turn, with the reset pin high (log entry 17). -/
def placeRequest (r : HostRequest) (s : State) : State :=
  { s with agenda := .host r s.intLine :: s.agenda, rstN := true }

end Sys2Proof.Machine
end

