-- ==== Sys2Proof/Machine/Peripheral.lean ====
section
/-! DEFINITION. The reference peripheral of 20_memory.md R45 and the bit-modify law of R37. It is a test double outside the block, one
environment among all those the block admits (R64): no step of the machine reads it (log entry 19). -/

namespace Sys2Proof.Machine

/-- What BIT_MODIFY makes of a peripheral register (R37): bits outside the mask are left untouched. -/
def bitModified (old mask data : Byte) : Byte := (old &&& ~~~mask) ||| (data &&& mask)

/-- The reference peripheral (R45): its 256 registers, their reset defaults, and its two status bytes. -/
structure RefPeripheral where
  regs     : Vector Byte 256
  defaults : Vector Byte 256
  stat     : Byte
  rx       : Byte
deriving DecidableEq, Repr

/-- The register at an address (R32). -/
def RefPeripheral.reg (p : RefPeripheral) (a : Byte) : Byte := p.regs[a.toNat]

/-- The peripheral with one register written. -/
def RefPeripheral.setReg (p : RefPeripheral) (a v : Byte) : RefPeripheral := { p with regs := p.regs.set a.toNat v }

/-- The bytes it sends during a frame (R45): 0xFF wherever the rule names none. -/
def RefPeripheral.replies (p : RefPeripheral) (bytes : List Byte) : List Byte :=
  match bytes with
  | [op, a, f] => if op = 0x03#8 ∧ f = Config.filler then [0xFF#8, 0xFF#8, p.reg a] else [0xFF#8, 0xFF#8, 0xFF#8]
  | [op, f] =>
    if op = 0xA0#8 ∧ f = Config.filler then [0xFF#8, p.stat]
    else if op = 0xB0#8 ∧ f = Config.filler then [0xFF#8, p.rx]
    else [0xFF#8, 0xFF#8]
  | other => other.map (fun _ => 0xFF#8)

/-- What a frame does to it (R45). -/
def RefPeripheral.after (p : RefPeripheral) (bytes : List Byte) : RefPeripheral :=
  match bytes with
  | [op] => if op = 0xC0#8 then { p with regs := p.defaults } else p
  | [op, a, v] => if op = 0x02#8 then p.setReg a v else p
  | [op, a, m, d] => if op = 0x05#8 then p.setReg a (bitModified (p.reg a) m d) else p
  | _ => p

end Sys2Proof.Machine
end

