-- ==== Sys2Proof/Safety.lean ====
section
/-! DEFINITION. What claims call a good run: the framing of the trace (R30, R68) and the invariant of the state. -/

namespace Sys2Proof.Machine

/-- `n` steps, stopping at the first fault or refusal: `Host.Core.run` of the machine, at the model's own types. -/
def runFor : Nat → State → Host.Outcome State Fault Refusal
  | 0, s => .next s
  | n + 1, s =>
    match step s with
    | .next t => runFor n t
    | .fault r => .fault r
    | .refused r => .refused r

/-- An automaton that reads the trace: `none` outside a frame, `some xs` inside one with the exchanges `xs` so far, in order. The
outer `none` says the framing is broken. A REJECT event is no bus event (R30; log entry 7). -/
def scanEvent (st : Option (List (Byte × Byte))) (e : Event) : Option (Option (List (Byte × Byte))) :=
  match st, e with
  | none, .csLow => some (some [])
  | some xs, .xchg tx rx => some (some (xs ++ [(tx, rx)]))
  | some _, .csHigh => some none
  | st, .reject _ => some st
  | some _, .csLow => none
  | none, .xchg _ _ => none
  | none, .csHigh => none

/-- The automaton over a whole trace. -/
def scanTrace (tr : List Event) : Option (Option (List (Byte × Byte))) :=
  tr.foldl (fun st e => st.bind (fun x => scanEvent x e)) (some none)

/-- The trace's events on the bus (R30): all but REJECT. -/
def busEvents (tr : List Event) : List Event :=
  tr.filter (fun e => match e with | .reject _ => false | .csLow => true | .xchg _ _ => true | .csHigh => true)

/-- The events of one complete frame: its bytes in order, each with its reply (R68, R73). -/
def frameEvents (bytes replies : List Byte) : List Event :=
  .csLow :: (bytes.zipWith Event.xchg replies) ++ [.csHigh]

/-- The phases in which select is asserted between steps (R71). -/
def Phase.selected : Phase → Bool
  | .xfer => true
  | .deassert => true
  | .idle => false
  | .initLines => false
  | .initXport => false
  | .assert => false
  | .settle => false

/-- The phases of a frame and its settle wait, in which a command is latched (R20). -/
def Phase.framing : Phase → Bool
  | .assert => true
  | .xfer => true
  | .deassert => true
  | .settle => true
  | .idle => false
  | .initLines => false
  | .initXport => false

/-- Who takes a step (R10), with the reset pin. -/
inductive Agent where
  | host | sequencer | transport | settleTimer | resetPin
deriving DecidableEq, Repr

/-- The agent of a turn. -/
def agentOf : Turn → Agent
  | .host _ _ => .host
  | .memory _ _ => .host
  | .sequencer => .sequencer
  | .transport _ => .transport
  | .settleTimer => .settleTimer
  | .resetPin _ => .resetPin

/-- The operation a turn runs, where it is the host's and its access is one (R49). -/
def turnInstr : Turn → Option Instr
  | .host r _ => (decode r).toOption
  | .memory m _ => (portAccess m).bind (fun a => (decodeAccess a).toOption)
  | .sequencer => none
  | .transport _ => none
  | .settleTimer => none
  | .resetPin _ => none

/-- OP, ADDR, ARG0 and ARG1 of a CMD write (R47), for the ten CMD rows. -/
def cmdFields : Instr → Option (Byte × Byte × Byte × Byte)
  | .reset a v d => some (Opcode.byte .reset, a, v, d)
  | .read a v d => some (Opcode.byte .read, a, v, d)
  | .write a v d => some (Opcode.byte .write, a, v, d)
  | .bitModify a v d => some (Opcode.byte .bitModify, a, v, d)
  | .readStatus a v d => some (Opcode.byte .readStatus, a, v, d)
  | .rxStatus a v d => some (Opcode.byte .rxStatus, a, v, d)
  | .cmdRejectReadRx a v d => some (Opcode.byte .readRx, a, v, d)
  | .cmdRejectWriteRx a v d => some (Opcode.byte .writeRx, a, v, d)
  | .cmdRejectRequestToSend a v d => some (Opcode.byte .requestToSend, a, v, d)
  | .cmdRejectOther op a v d => some (op, a, v, d)
  | .init _ _ => none
  | .clrErr _ => none
  | .ctrlNoop _ => none
  | .rdStatus => none
  | .hasPendingEvent => none
  | .rdResult => none
  | .rdCmd => none
  | .rdCtrl => none
  | .wrStatus _ => none
  | .wrResult _ => none

/-- The operations whose CTRL word has bit 1 set, the only ones that clear the error flags (R24, R92, R97). -/
def clearsErrors : Instr → Bool
  | .clrErr _ => true
  | .init clr _ => clr
  | .reset _ _ _ => false
  | .read _ _ _ => false
  | .write _ _ _ => false
  | .bitModify _ _ _ => false
  | .readStatus _ _ _ => false
  | .rxStatus _ _ _ => false
  | .cmdRejectReadRx _ _ _ => false
  | .cmdRejectWriteRx _ _ _ => false
  | .cmdRejectRequestToSend _ _ _ => false
  | .cmdRejectOther _ _ _ _ => false
  | .ctrlNoop _ => false
  | .rdStatus => false
  | .hasPendingEvent => false
  | .rdResult => false
  | .rdCmd => false
  | .rdCtrl => false
  | .wrStatus _ => false
  | .wrResult _ => false

/-- What every reachable state of the block satisfies. -/
structure Block.Inv (b : Block) : Prop where
  /-- R71: `cs_n` is 0 in XFER and DEASSERT, and 1 in every other phase. -/
  select    : b.csN = !b.phase.selected
  /-- Between steps `sck` and `mosi` are 0: outside XFER by R71, in XFER by the model's reading of R61 (log entry 11). -/
  sckLow    : b.sck = false
  mosiLow   : b.mosi = false
  /-- The settle timer runs in SETTLE (R28) and only there, which is the model's (log entry 10). -/
  timer     : b.settle = .running ↔ b.phase = .settle
  /-- R25: `ready = 1` implies `xport_en = 1`, and no frame starts without it. -/
  readyXport : b.ready = true → b.xportEn = true
  frameXport : b.phase.framing = true → b.xportEn = true
  /-- R27: `init_mode` is 1 from an accepted INIT to the end of its SETTLE, with READY = 0 and BUSY = 1. -/
  initReady : b.initMode = true → b.ready = false ∧ b.phase ≠ .idle
  initPhase : b.phase = .initLines ∨ b.phase = .initXport → b.initMode = true
  /-- R96: the frame that INIT runs is the Reset frame. -/
  initFrame : b.initMode = true → b.phase.framing = true → b.op = 0xC0#8
  /-- R102: a frame outside INIT runs with READY = 1. -/
  frameReady : b.phase.framing = true → b.initMode = false → b.ready = true
  /-- R72, R95: a latched command is in SUPPORTED while its frame is sent. -/
  latched   : b.phase.framing = true → supported b.op = true
  /-- R67: exchange k in progress is one of the frame's. -/
  index     : b.phase = .xfer → b.k.toNat < b.frame.length
  /-- R67: DEASSERT follows the last exchange. -/
  allSent   : b.phase = .deassert → b.k.toNat = b.frame.length
  /-- R66: SETTLE follows a Reset frame only. -/
  settleOp  : b.phase = .settle → b.op = 0xC0#8
  /-- R13, R54: the index never passes 4. -/
  indexMax  : b.k.toNat ≤ 4
  /-- R23: RVALID is 1 in IDLE only. -/
  validIdle : b.rvalid = true → b.phase = .idle
  /-- R67: within frames `xfer_done` is 0 while an exchange is in progress (R62). -/
  notDone   : b.phase = .xfer → b.xferDone = false

/-- How the trace fits the block (R68): closed outside a frame, and inside one open with exactly the bytes of the latched
frame sent so far, the capture register holding the reply of the capture exchange once that is past (R21). -/
def traceFits (b : Block) (tr : List Event) : Prop :=
  if b.csN then scanTrace tr = some none
  else ∃ xs, scanTrace tr = some (some xs) ∧ xs.map Prod.fst = b.frame.take b.k.toNat ∧
    ∀ c, capIdx b.op = some c → c < b.k.toNat → (xs.map Prod.snd)[c]? = some b.cap

/-- The invariant of the machine: the block's own, the trace's, and the R29 values while the reset pin is low (R114;
for a host access log entry 8). -/
structure State.Inv (s : State) : Prop where
  block : s.block.Inv
  trace : traceFits s.block s.trace
  reset : s.rstN = false → s.block = Block.reset

end Sys2Proof.Machine
end

