-- ==== Sys2Proof/Certificates/Slice0/Obligations.lean ====
section
/-! DEFINITION. The statements about the model, for the provers. Each docstring names the rules of spec/ it formalises. -/

open Sys2Proof Sys2Proof.Machine

/-! ## Encoding -/

/-- R46 to R49: no bit of an encoding is dropped: decoding the request of a well-formed operation gives the operation back, with
every operand at every value. -/
def Obligations.DecodeOfEncodeIsIdentity : Prop :=
  ∀ i : Instr, i.WellFormed → decode (encode i) = .ok i

/-- R49: the other direction: what is decoded is well formed, and its own request is the same access on the bus. The data of a
read is not compared, since a read carries none. -/
def Obligations.DecodedRequestReencodes : Prop :=
  ∀ (r : HostRequest) (i : Instr), decode r = .ok i →
    i.WellFormed ∧ (encode i).busAccess.dir = r.busAccess.dir ∧ (encode i).busAccess.width = r.busAccess.width ∧
    (encode i).busAccess.offset = r.busAccess.offset ∧
    (r.busAccess.dir = .write → (encode i).busAccess.data = r.busAccess.data)

/-- R49, R33: the decode is total over the aligned 32-bit accesses, and names what it refuses. -/
def Obligations.DecodeTotalOnAlignedWords : Prop :=
  ∀ a : HostAccess,
    (a.width = .w32 → a.offset.toNat % 4 = 0 → ∃ i, decode (.access a) = .ok i) ∧
    (a.width = .w32 → a.offset.toNat % 4 ≠ 0 → decode (.access a) = .error (.misaligned a.offset)) ∧
    (a.width ≠ .w32 → decode (.access a) = .error (.narrow a.width))

/-- R49: each of the eight host operations is decoded by direction and offset and has the effect R49 names: CmdWrite on the fields
of the word (R47), CtrlWrite in the order of R92, an ignored write, or a read that returns its register. -/
def Obligations.HostAccessEffectByOffset : Prop :=
  ∀ (w : Word) (s : State),
    (∃ i, decode (hostWrite 0x0#4 w) = .ok i ∧
      exec i s = .next (cmdWrite (cmdOp w) (cmdAddr w) (cmdArg0 w) (cmdArg1 w) s)) ∧
    (∃ i, decode (hostWrite 0x4#4 w) = .ok i ∧ exec i s = .next s) ∧
    (∃ i, decode (hostWrite 0x8#4 w) = .ok i ∧ exec i s = .next s) ∧
    (∃ i, decode (hostWrite 0xC#4 w) = .ok i ∧
      exec i s = .next (if w.getLsbD 0 then initRequest (if w.getLsbD 1 then clearErrors s else s)
        else if w.getLsbD 1 then clearErrors s else s)) ∧
    (∃ i, decode (hostRead 0x0#4) = .ok i ∧ exec i s = .next { s with reads := s.reads ++ [0x00000000#32] }) ∧
    (∃ i, decode (hostRead 0x4#4) = .ok i ∧ exec i s = .next { s with reads := s.reads ++ [statusWord s] }) ∧
    (∃ i, decode (hostRead 0x8#4) = .ok i ∧ exec i s = .next { s with reads := s.reads ++ [resultWord s] }) ∧
    (∃ i, decode (hostRead 0xC#4) = .ok i ∧ exec i s = .next { s with reads := s.reads ++ [0x00000000#32] })

/-- R47, R48, R50, R58: words written out from the encodings of the spec decode to the operations they stand for. -/
def Obligations.WrittenOutWordsDecode : Prop :=
  decode (hostWrite 0x0#4 0x000000C0#32) = .ok (.reset 0x00#8 0x00#8 0x00#8) ∧
  decode (hostWrite 0x0#4 0x00002A03#32) = .ok (.read 0x2A#8 0x00#8 0x00#8) ∧
  decode (hostWrite 0x0#4 0x00800F02#32) = .ok (.write 0x0F#8 0x80#8 0x00#8) ∧
  decode (hostWrite 0x0#4 0x21350F05#32) = .ok (.bitModify 0x0F#8 0x35#8 0x21#8) ∧
  decode (hostWrite 0x0#4 0x000000A0#32) = .ok (.readStatus 0x00#8 0x00#8 0x00#8) ∧
  decode (hostWrite 0x0#4 0xFFFFFFB0#32) = .ok (.rxStatus 0xFF#8 0xFF#8 0xFF#8) ∧
  decode (hostWrite 0x0#4 0x00000040#32) = .ok (.cmdRejectWriteRx 0x00#8 0x00#8 0x00#8) ∧
  decode (hostWrite 0x0#4 0x00000004#32) = .ok (.cmdRejectOther 0x04#8 0x00#8 0x00#8 0x00#8) ∧
  decode (hostWrite 0xC#4 0x00000001#32) = .ok (.init false 0#30) ∧
  decode (hostWrite 0xC#4 0x00000003#32) = .ok (.init true 0#30) ∧
  decode (hostWrite 0xC#4 0x00000002#32) = .ok (.clrErr 0#30) ∧
  decode (hostRead 0x4#4) = .ok .rdStatus

/-- R51, R55: in IDLE with READY = 1 the write of a CMD word starts a frame exactly when its OP is one of the six of SUPPORTED, whatever
the other fields are. -/
def Obligations.AcceptedOpcodesAreExactlySix : Prop :=
  ∀ (w : Word) (s : State), s.block.phase = .idle → s.block.ready = true →
    ((∃ i t, decode (hostWrite 0x0#4 w) = .ok i ∧ exec i s = .next t ∧ t.block.phase = .assert) ↔
      cmdOp w ∈ [0xC0#8, 0x03#8, 0x02#8, 0x05#8, 0xA0#8, 0xB0#8])

/-- R53: the frame of every supported OP and the index of the exchange whose reply is kept. -/
def Obligations.FrameAndCaptureTable : Prop :=
  ∀ addr arg0 arg1 : Byte,
    frame 0xC0#8 addr arg0 arg1 = [0xC0#8] ∧
    frame 0x03#8 addr arg0 arg1 = [0x03#8, addr, 0xFF#8] ∧
    frame 0x02#8 addr arg0 arg1 = [0x02#8, addr, arg0] ∧
    frame 0x05#8 addr arg0 arg1 = [0x05#8, addr, arg0, arg1] ∧
    frame 0xA0#8 addr arg0 arg1 = [0xA0#8, 0xFF#8] ∧
    frame 0xB0#8 addr arg0 arg1 = [0xB0#8, 0xFF#8] ∧
    capIdx 0x03#8 = some 2 ∧ capIdx 0xA0#8 = some 1 ∧ capIdx 0xB0#8 = some 1 ∧
    ∀ op : Byte, op ≠ 0x03#8 → op ≠ 0xA0#8 → op ≠ 0xB0#8 → capIdx op = none

/-- R34, R61: one exchange makes exactly eight rising edges of `sck`; `mosi` stands at tx[7], tx[6], ..., tx[0] at them; a peripheral
that puts those samples together most significant bit first has the byte sent, the block has the byte supplied, and both
lines are left low. -/
def Obligations.ExchangeIsMostSignificantBitFirst : Prop :=
  ∀ tx miso : Byte,
    risingEdges ⟨false, false⟩ (exchange tx miso).wave =
      [tx.getLsbD 7, tx.getLsbD 6, tx.getLsbD 5, tx.getLsbD 4, tx.getLsbD 3, tx.getLsbD 2, tx.getLsbD 1, tx.getLsbD 0] ∧
    assembleMsbFirst (risingEdges ⟨false, false⟩ (exchange tx miso).wave) = tx ∧
    (exchange tx miso).rx = miso ∧ lastPins (exchange tx miso).wave = ⟨false, false⟩

/-! ## A step runs the decoded operation -/

/-- R40, R49: when the next turn is the host's and its request decodes to `i`, the step is `exec i` on the state with the turn taken
and the interrupt pin as it stands at the access; and the operation of a table number that is placed by `withFetchWord` is
what the very next step runs. -/
def Obligations.StepRunsDecodedOperation : Prop :=
  (∀ (s : State) (r : HostRequest) (line : IntLine) (rest : List Turn) (i : Instr),
    s.rstN = true → s.agenda = .host r line :: rest → decode r = .ok i →
    step s = exec i { s with agenda := rest, intLine := line }) ∧
  (∀ (s : State) (nbits w : Nat) (i : Instr), decodeTableWord nbits w = some i →
    step (s.withFetchWord nbits w) = exec i { s with rstN := true })

/-- R33, R8: a host access of 8 or 16 bits, or at an offset that is not a multiple of 4, is refused by name. -/
def Obligations.StepRefusesNarrowAndMisaligned : Prop :=
  ∀ (s : State) (a : HostAccess) (line : IntLine) (rest : List Turn), s.agenda = .host (.access a) line :: rest →
    (a.width ≠ .w32 → step s = .refused (.narrowAccess a.width)) ∧
    (a.width = .w32 → a.offset.toNat % 4 ≠ 0 → step s = .refused (.misalignedAccess a.offset))

/-- R7, R38: an access at a platform address outside the window does not reach the block, and one at BASE + off is the access at offset
`off` of the port. -/
def Obligations.PlatformAccessReachesOnlyTheWindow : Prop :=
  ∀ (s : State) (m : MemAccess) (line : IntLine) (rest : List Turn), s.agenda = .memory m line :: rest →
    (m.address < Config.base ∨ Config.base + 16 ≤ m.address →
      step s = .next { s with agenda := rest, intLine := line }) ∧
    (∀ off : BitVec 4, m.address = Config.base + off.toNat →
      step s = step { s with agenda := .host (.access ⟨m.dir, m.width, off, m.data⟩) line :: rest })

/-! ## What the host operations do -/

/-- R72: in IDLE with READY = 1 each of the six commands is accepted: its fields are latched, RVALID is cleared and the phase becomes
ASSERT; nothing else changes. -/
def Obligations.SupportedCommandIsAccepted : Prop :=
  ∀ (addr arg0 arg1 : Byte) (s : State), s.block.phase = .idle → s.block.ready = true →
    let accepted : Byte → Host.Outcome State Fault Refusal := fun op =>
      .next { s with block := { s.block with op := op, addr := addr, arg0 := arg0, arg1 := arg1, rvalid := false, phase := .assert } }
    exec (.reset addr arg0 arg1) s = accepted 0xC0#8 ∧
    exec (.read addr arg0 arg1) s = accepted 0x03#8 ∧
    exec (.write addr arg0 arg1) s = accepted 0x02#8 ∧
    exec (.bitModify addr arg0 arg1) s = accepted 0x05#8 ∧
    exec (.readStatus addr arg0 arg1) s = accepted 0xA0#8 ∧
    exec (.rxStatus addr arg0 arg1) s = accepted 0xB0#8

/-- R84, R103: in IDLE with READY = 1 a CMD write whose OP is not in SUPPORTED sets ERR_BADOP and records the rejection; nothing is
sent and nothing else changes. -/
def Obligations.UnsupportedOpcodeIsRejected : Prop :=
  ∀ (addr arg0 arg1 : Byte) (s : State), s.block.phase = .idle → s.block.ready = true →
    let rejected : Host.Outcome State Fault Refusal :=
      .next { s with block := { s.block with errBadOp := true }, trace := s.trace ++ [.reject .badOp] }
    exec (.cmdRejectReadRx addr arg0 arg1) s = rejected ∧
    exec (.cmdRejectWriteRx addr arg0 arg1) s = rejected ∧
    exec (.cmdRejectRequestToSend addr arg0 arg1) s = rejected ∧
    ∀ op : Byte, (Instr.cmdRejectOther op addr arg0 arg1).WellFormed → exec (.cmdRejectOther op addr arg0 arg1) s = rejected

/-- R101, R104: a CMD write of any row, or an INIT request, while the phase is not IDLE sets ERR_BUSY, whatever else is wrong with it, and
records the rejection; nothing else changes. In one CTRL write CLR_ERR is applied first (R92). -/
def Obligations.WriteWhileBusyIsRejected : Prop :=
  (∀ (i : Instr) (op addr arg0 arg1 : Byte) (s : State),
    cmdFields i = some (op, addr, arg0, arg1) → s.block.phase ≠ .idle →
    exec i s = .next { s with block := { s.block with errBusy := true }, trace := s.trace ++ [.reject .busy] }) ∧
  (∀ (ignored : BitVec 30) (s : State), s.block.phase ≠ .idle →
    exec (.init false ignored) s =
      .next { s with block := { s.block with errBusy := true }, trace := s.trace ++ [.reject .busy] } ∧
    exec (.init true ignored) s =
      .next { s with
        block := { s.block with errBusy := true, errNotReady := false, errBadOp := false }
        trace := s.trace ++ [.reject .busy] })

/-- R102, R104: a CMD write of any row in IDLE with READY = 0 sets ERR_NOT_READY, also with an unsupported OP, and records the
rejection; nothing else changes. -/
def Obligations.CommandBeforeInitIsRejected : Prop :=
  ∀ (i : Instr) (op addr arg0 arg1 : Byte) (s : State),
    cmdFields i = some (op, addr, arg0, arg1) → s.block.phase = .idle → s.block.ready = false →
    exec i s = .next { s with block := { s.block with errNotReady := true }, trace := s.trace ++ [.reject .notReady] }

/-- R93, R92: INIT in IDLE clears READY and RVALID, sets `init_mode` and enters INIT_LINES, with the error flags cleared first where the
word's bit 1 is set; nothing else changes. -/
def Obligations.InitIsAcceptedWhenIdle : Prop :=
  ∀ (clr : Bool) (ignored : BitVec 30) (s : State), s.block.phase = .idle →
    exec (.init clr ignored) s = .next { s with block := { s.block with
      errBusy := if clr then false else s.block.errBusy
      errNotReady := if clr then false else s.block.errNotReady
      errBadOp := if clr then false else s.block.errBadOp
      ready := false
      rvalid := false
      initMode := true
      phase := .initLines } }

/-- R97: CLR_ERR clears the three sticky flags, in every phase, and changes nothing else. -/
def Obligations.ClearErrorsClearsOnlyTheFlags : Prop :=
  ∀ (ignored : BitVec 30) (s : State),
    exec (.clrErr ignored) s =
      .next { s with block := { s.block with errBusy := false, errNotReady := false, errBadOp := false } }

/-- R90: writes to STATUS and RESULT are ignored, and a CTRL word with bits 1:0 = 0b00 is a no-op (R48, R92). -/
def Obligations.IgnoredWritesChangeNothing : Prop :=
  ∀ (w : Word) (ignored : BitVec 30) (s : State),
    exec (.wrStatus w) s = .next s ∧ exec (.wrResult w) s = .next s ∧ exec (.ctrlNoop ignored) s = .next s

/-- R15, R87: a read of STATUS returns the word with each bit as R15 says, and changes nothing but the record of what was read. -/
def Obligations.StatusReadReturnsItsBits : Prop :=
  ∀ s : State, ∃ w : Word, exec .rdStatus s = .next { s with reads := s.reads ++ [w] } ∧
    w.getLsbD 0 = decide (s.block.phase ≠ .idle) ∧ w.getLsbD 1 = s.block.ready ∧
    w.getLsbD 2 = decide (s.intLine = .low) ∧ w.getLsbD 3 = s.block.rvalid ∧ w.getLsbD 4 = !s.block.csN ∧
    w.getLsbD 8 = s.block.errBusy ∧ w.getLsbD 9 = s.block.errNotReady ∧ w.getLsbD 10 = s.block.errBadOp ∧
    ∀ n, 5 ≤ n ∧ n ≤ 7 ∨ 11 ≤ n → w.getLsbD n = false

/-- R86: HAS_PENDING_EVENT gives 1 exactly when the interrupt pin reads low (an undriven pin reads high, R11), in every phase, and
changes nothing but the record of what was read. -/
def Obligations.PendingPollFollowsTheLine : Prop :=
  ∀ s : State, exec .hasPendingEvent s =
    .next { s with reads := s.reads ++ [if s.intLine = .low then 0x00000001#32 else 0x00000000#32] }

/-- R88, R89: a read of RESULT returns `result` zero-extended (R16), a read of CMD or CTRL returns 0; nothing changes but the record of
what was read. -/
def Obligations.ResultAndWriteOnlyReads : Prop :=
  ∀ s : State,
    exec .rdResult s = .next { s with reads := s.reads ++ [s.block.result.setWidth 32] } ∧
    exec .rdCmd s = .next { s with reads := s.reads ++ [0x00000000#32] } ∧
    exec .rdCtrl s = .next { s with reads := s.reads ++ [0x00000000#32] }

/-- R36, R100: the frame of every host operation: no line, no transport state, no index, no capture, no RESULT, no settle timer and no
bus event changes; the pins, the agenda and the free turns are left alone; and only a read adds to what was read. -/
def Obligations.HostOperationsLeaveTheBusAlone : Prop :=
  ∀ (i : Instr) (s t : State), exec i s = .next t →
    t.block.csN = s.block.csN ∧ t.block.sck = s.block.sck ∧ t.block.mosi = s.block.mosi ∧
    t.block.pullUp = s.block.pullUp ∧ t.block.k = s.block.k ∧ t.block.cap = s.block.cap ∧
    t.block.result = s.block.result ∧ t.block.xportEn = s.block.xportEn ∧ t.block.xferDone = s.block.xferDone ∧
    t.block.settle = s.block.settle ∧ busEvents t.trace = busEvents s.trace ∧
    t.rstN = s.rstN ∧ t.intLine = s.intLine ∧ t.agenda = s.agenda ∧ t.draws = s.draws ∧
    ((encode i).busAccess.dir = .write → t.reads = s.reads) ∧
    ((encode i).busAccess.dir = .read → t.block = s.block ∧ t.trace = s.trace)

/-! ## The steps of the other agents -/

/-- R65, R62: ASSERT drives select low, sets the index to 0 and starts exchange 0, with the transfer-complete flag cleared. -/
def Obligations.AssertStepSelectsThePeripheral : Prop :=
  ∀ (s : State) (rest : List Turn), s.rstN = true → s.agenda = .sequencer :: rest → s.block.phase = .assert →
    step s = .next { s with
      agenda := rest
      block := { s.block with csN := false, k := 0#3, xferDone := false, phase := .xfer }
      trace := s.trace ++ [.csLow] }

/-- R67: the completion of exchange k records the byte sent and the reply, keeps the reply where k is the capture index, sets the
transfer-complete flag after the last exchange only, and goes on to exchange k + 1 or to DEASSERT. Nothing is said of `sck` and
`mosi` here. -/
def Obligations.ExchangeCompletionStep : Prop :=
  ∀ (s : State) (rest : List Turn) (rx tx : Byte), s.rstN = true → s.agenda = .transport rx :: rest →
    s.block.phase = .xfer → (frame s.block.op s.block.addr s.block.arg0 s.block.arg1)[s.block.k.toNat]? = some tx →
    let last := s.block.k.toNat + 1 = (frame s.block.op s.block.addr s.block.arg0 s.block.arg1).length
    ∃ sck mosi : Bool, step s = .next { s with
      agenda := rest
      block := { s.block with
        cap := if capIdx s.block.op = some s.block.k.toNat then rx else s.block.cap
        k := s.block.k + 1#3
        xferDone := decide last
        phase := if last then .deassert else .xfer
        sck := sck
        mosi := mosi }
      trace := s.trace ++ [.xchg tx rx] }

/-- R66, R81: DEASSERT drives select high, loads RESULT and sets RVALID for a capturing command and for no other, and goes to SETTLE with
the timer running after a Reset frame, to IDLE after any other. -/
def Obligations.DeassertStepReleasesAndCaptures : Prop :=
  ∀ (s : State) (rest : List Turn), s.rstN = true → s.agenda = .sequencer :: rest → s.block.phase = .deassert →
    step s = .next { s with
      agenda := rest
      block := { s.block with
        csN := true
        result := if capIdx s.block.op ≠ none then s.block.cap else s.block.result
        rvalid := if capIdx s.block.op ≠ none then true else s.block.rvalid
        phase := if s.block.op = 0xC0#8 then .settle else .idle
        settle := if s.block.op = 0xC0#8 then .running else s.block.settle }
      trace := s.trace ++ [.csHigh] }

/-- R94, R95: INIT_LINES drives the three lines to their levels, and INIT_XPORT enables the transport, clears its flag and latches the
Reset opcode, with addr, arg0 and arg1 unchanged. -/
def Obligations.InitStepsConfigureLinesAndTransport : Prop :=
  ∀ (s : State) (rest : List Turn), s.rstN = true → s.agenda = .sequencer :: rest →
    (s.block.phase = .initLines → step s = .next { s with
      agenda := rest
      block := { s.block with csN := true, sck := false, mosi := false, phase := .initXport } }) ∧
    (s.block.phase = .initXport → step s = .next { s with
      agenda := rest
      block := { s.block with xportEn := true, xferDone := false, op := 0xC0#8, phase := .assert } })

/-- R75, R96: the end of SETTLE goes to IDLE, and where the Reset frame was INIT's it sets READY and clears `init_mode`. That the timer
stops is the model's (log entry 10). -/
def Obligations.SettleEndFinishesInit : Prop :=
  ∀ (s : State) (rest : List Turn), s.rstN = true → s.agenda = .settleTimer :: rest → s.block.phase = .settle →
    step s = .next { s with
      agenda := rest
      block := { s.block with
        phase := .idle
        ready := if s.block.initMode then true else s.block.ready
        initMode := false
        settle := .stopped } }

/-- R20, R67, R75: an agent whose step is not enabled changes nothing with its turn. The idle turn is the model's (log entry 2). -/
def Obligations.DisabledAgentChangesNothing : Prop :=
  ∀ (s : State) (rest : List Turn), s.rstN = true →
    (s.agenda = .sequencer :: rest → s.block.phase = .idle ∨ s.block.phase = .xfer ∨ s.block.phase = .settle →
      step s = .next { s with agenda := rest }) ∧
    (∀ rx : Byte, s.agenda = .transport rx :: rest → s.block.phase ≠ .xfer → step s = .next { s with agenda := rest }) ∧
    (s.agenda = .settleTimer :: rest → s.block.phase ≠ .settle → step s = .next { s with agenda := rest })

/-! ## Reset -/

/-- R29: the reset value of every element of state. -/
def Obligations.ResetValuesOfTheSpec : Prop :=
  State.reset.block.csN = true ∧ State.reset.block.sck = false ∧ State.reset.block.mosi = false ∧
  State.reset.block.pullUp = .enabled ∧ State.reset.block.phase = .idle ∧
  State.reset.block.op = 0x00#8 ∧ State.reset.block.addr = 0x00#8 ∧ State.reset.block.arg0 = 0x00#8 ∧
  State.reset.block.arg1 = 0x00#8 ∧ State.reset.block.k = 0#3 ∧ State.reset.block.cap = 0x00#8 ∧
  State.reset.block.result = 0x00#8 ∧ State.reset.block.ready = false ∧ State.reset.block.rvalid = false ∧
  State.reset.block.errBusy = false ∧ State.reset.block.errNotReady = false ∧ State.reset.block.errBadOp = false ∧
  State.reset.block.xportEn = false ∧ State.reset.block.xferDone = false ∧ State.reset.block.initMode = false ∧
  State.reset.block.settle = .stopped ∧ State.reset.trace = [] ∧
  ∀ (line : IntLine) (s : State), s = { State.reset with intLine := line } →
    statusWord s = if line = .low then 0x00000004#32 else 0x00000000#32

/-- R114: the fall of `rst_n`, in any phase, puts every element of the block at its reset value and ends a frame in progress with CS_HIGH;
its rise changes the pin alone (R115). That the trace before it is kept is the model's reading (log entry 6). -/
def Obligations.BlockResetFromAnyState : Prop :=
  ∀ (s : State) (rest : List Turn),
    (s.agenda = .resetPin false :: rest → step s = .next { s with
      agenda := rest
      rstN := false
      block := State.reset.block
      trace := if s.block.csN then s.trace else s.trace ++ [.csHigh] }) ∧
    (s.agenda = .resetPin true :: rest → step s = .next { s with agenda := rest, rstN := true })

/-- R29, R114: while the reset pin is low the block stays at its reset values and no event is recorded, whatever turn is taken. For a host
access this is the model's reading (log entry 8). -/
def Obligations.ResetValuesHoldWhileAsserted : Prop :=
  ∀ s t : State, s.rstN = false → s.block = State.reset.block → step s = .next t →
    t.block = State.reset.block ∧ t.trace = s.trace

/-! ## Rules of the whole machine -/

/-- The invariant holds at reset. -/
def Obligations.InvariantHoldsAtReset : Prop := State.reset.Inv

/-- R13, R20, R22, R23, R25, R27, R54, R68, R71: every step of every agent keeps the invariant, from every state that has it. Three
clauses of the invariant are the model's reading and not the spec's words: `sck` and `mosi` are 0 between steps in XFER too, where
R71 speaks of the other phases only (log entry 11); the settle timer runs in SETTLE only, where R28 says when it starts (log
entry 10); and the block stays at its reset values while the reset pin is low, also under a host access (log entry 8). -/
def Obligations.InvariantKeptByEveryStep : Prop :=
  ∀ s t : State, s.Inv → step s = .next t → t.Inv

/-- R8, R105: from a state with the invariant no step faults, and the only refusals are those of R33. -/
def Obligations.InvariantExcludesFaults : Prop :=
  ∀ s : State, s.Inv →
    (∀ f : Fault, step s ≠ .fault f) ∧
    ∀ r : Refusal, step s = .refused r → (∃ w, w ≠ .w32 ∧ r = .narrowAccess w) ∨ (∃ off : BitVec 4, off.toNat % 4 ≠ 0 ∧ r = .misalignedAccess off)

/-- R68 (a), (b): along every run from a state with the invariant, CS_LOW and CS_HIGH alternate and every exchange lies inside a bracket. -/
def Obligations.RunsKeepTheFraming : Prop :=
  ∀ (s t : State) (n : Nat), s.Inv → runFor n s = .next t → scanTrace t.trace ≠ none

/-- R20: the phase moves only by the edges of the table, each by its own agent's step and under its own condition; BUSY is
phase != IDLE. The premise on the reset pin is part of the invariant. -/
def Obligations.PhaseMovesOnlyByItsEdges : Prop :=
  (∀ s : State, (statusWord s).getLsbD 0 = decide (s.block.phase ≠ .idle)) ∧
  ∀ s t : State, (s.rstN = false → s.block = Block.reset) → step s = .next t →
    t.block.phase = s.block.phase ∨
    (s.block.phase = .idle ∧ t.block.phase = .assert ∧
      ∃ i f, turnInstr (nextTurn s) = some i ∧ cmdFields i = some f) ∨
    (s.block.phase = .idle ∧ t.block.phase = .initLines ∧ ∃ clr g, turnInstr (nextTurn s) = some (.init clr g)) ∨
    (s.block.phase = .initLines ∧ t.block.phase = .initXport ∧ nextTurn s = .sequencer) ∨
    (s.block.phase = .initXport ∧ t.block.phase = .assert ∧ nextTurn s = .sequencer) ∨
    (s.block.phase = .assert ∧ t.block.phase = .xfer ∧ nextTurn s = .sequencer ∧ t.block.csN = false) ∨
    (s.block.phase = .xfer ∧ t.block.phase = .deassert ∧ (∃ rx, nextTurn s = .transport rx) ∧
      s.block.k.toNat + 1 = s.block.frame.length) ∨
    (s.block.phase = .deassert ∧ t.block.phase = .idle ∧ nextTurn s = .sequencer ∧ t.block.csN = true ∧
      s.block.op ≠ 0xC0#8) ∨
    (s.block.phase = .deassert ∧ t.block.phase = .settle ∧ nextTurn s = .sequencer ∧ t.block.csN = true ∧
      s.block.op = 0xC0#8) ∨
    (s.block.phase = .settle ∧ t.block.phase = .idle ∧ nextTurn s = .settleTimer) ∨
    (t.block.phase = .idle ∧ nextTurn s = .resetPin false)

/-- R24: a rejected host write, which records its kind, sets the flag of that kind; nothing else sets it, and only CLR_ERR and block
reset clear it. The premise on the reset pin is part of the invariant. -/
def Obligations.StickyFlagsMoveOnlyByRule : Prop :=
  ∀ (flag : Block → Bool) (kind : ErrKind),
    (flag, kind) ∈ [(Block.errBusy, ErrKind.busy), (Block.errNotReady, ErrKind.notReady), (Block.errBadOp, ErrKind.badOp)] →
    ∀ s t : State, (s.rstN = false → s.block = Block.reset) → step s = .next t →
      (flag s.block = false → flag t.block = true →
        (∃ i, turnInstr (nextTurn s) = some i) ∧ t.trace = s.trace ++ [.reject kind]) ∧
      (t.trace = s.trace ++ [.reject kind] → flag t.block = true) ∧
      (flag s.block = true → flag t.block = false →
        (∃ i, turnInstr (nextTurn s) = some i ∧ clearsErrors i = true) ∨ nextTurn s = .resetPin false)

/-- R22: READY is set only at the end of INIT's SETTLE, and cleared only by an accepted INIT and by block reset. The premise on the
reset pin is part of the invariant. -/
def Obligations.ReadyMovesOnlyByRule : Prop :=
  ∀ s t : State, (s.rstN = false → s.block = Block.reset) → step s = .next t →
    (s.block.ready = false → t.block.ready = true →
      nextTurn s = .settleTimer ∧ s.block.phase = .settle ∧ s.block.initMode = true ∧ t.block.phase = .idle) ∧
    (s.block.ready = true → t.block.ready = false →
      (s.block.phase = .idle ∧ t.block.phase = .initLines ∧ ∃ clr g, turnInstr (nextTurn s) = some (.init clr g)) ∨
      nextTurn s = .resetPin false)

/-- R16, R81: outside block reset, RESULT is written in one place only, the DEASSERT step of a capturing frame, which loads the captured
byte. The premise on the reset pin is part of the invariant. -/
def Obligations.ResultWrittenOnlyByCapture : Prop :=
  ∀ s t : State, (s.rstN = false → s.block = Block.reset) → step s = .next t → t.block.result ≠ s.block.result →
    (nextTurn s = .sequencer ∧ s.block.phase = .deassert ∧ (capIdx s.block.op).isSome = true ∧
      t.block.result = s.block.cap ∧ t.block.rvalid = true) ∨
    nextTurn s = .resetPin false

/-- R23: RVALID is set only by the DEASSERT step of a capturing frame, and cleared only by an accepted CMD write, an accepted INIT and
block reset. The premise on the reset pin is part of the invariant. -/
def Obligations.RvalidMovesOnlyByRule : Prop :=
  ∀ s t : State, (s.rstN = false → s.block = Block.reset) → step s = .next t →
    (s.block.rvalid = false → t.block.rvalid = true →
      nextTurn s = .sequencer ∧ s.block.phase = .deassert ∧ (capIdx s.block.op).isSome = true ∧
      t.block.result = s.block.cap) ∧
    (s.block.rvalid = true → t.block.rvalid = false →
      ((∃ i, turnInstr (nextTurn s) = some i) ∧ s.block.phase = .idle ∧
        (t.block.phase = .assert ∨ t.block.phase = .initLines)) ∨
      nextTurn s = .resetPin false)

/-- R19: the latch is written by an accepted CMD write (all four fields), by INIT_XPORT (`op` alone), by block reset, and nowhere
else. The premise on the reset pin is part of the invariant. -/
def Obligations.LatchWrittenOnlyByRule : Prop :=
  ∀ s t : State, (s.rstN = false → s.block = Block.reset) → step s = .next t →
    (t.block.op = s.block.op ∧ t.block.addr = s.block.addr ∧ t.block.arg0 = s.block.arg0 ∧ t.block.arg1 = s.block.arg1) ∨
    (s.block.phase = .idle ∧ t.block.phase = .assert ∧ ∃ i, turnInstr (nextTurn s) = some i ∧
      cmdFields i = some (t.block.op, t.block.addr, t.block.arg0, t.block.arg1)) ∨
    (s.block.phase = .initXport ∧ nextTurn s = .sequencer ∧ t.block.op = 0xC0#8 ∧
      t.block.addr = s.block.addr ∧ t.block.arg0 = s.block.arg0 ∧ t.block.arg1 = s.block.arg1) ∨
    nextTurn s = .resetPin false

/-- R21: the index is set to 0 by ASSERT and goes up by one at each completion; the capture register is written only by the
completion of the capture exchange; block reset apart, nothing else moves them. The premise on the reset pin is part of the
invariant. -/
def Obligations.IndexAndCaptureMoveOnlyByRule : Prop :=
  ∀ s t : State, (s.rstN = false → s.block = Block.reset) → step s = .next t →
    (t.block.k ≠ s.block.k →
      (nextTurn s = .sequencer ∧ s.block.phase = .assert ∧ t.block.k = 0#3) ∨
      ((∃ rx, nextTurn s = .transport rx) ∧ s.block.phase = .xfer ∧ t.block.k = s.block.k + 1#3) ∨
      nextTurn s = .resetPin false) ∧
    (t.block.cap ≠ s.block.cap →
      (∃ rx, nextTurn s = .transport rx ∧ s.block.phase = .xfer ∧ capIdx s.block.op = some s.block.k.toNat ∧
        t.block.cap = rx) ∨
      nextTurn s = .resetPin false)

/-- R25: the transport is enabled by INIT_XPORT alone and disabled by block reset alone; and READY = 1 or a frame in progress implies that
it is enabled. The premise on the reset pin is part of the invariant. -/
def Obligations.TransportEnabledOnlyByInit : Prop :=
  (∀ s t : State, (s.rstN = false → s.block = Block.reset) → step s = .next t →
    (s.block.xportEn = false → t.block.xportEn = true → nextTurn s = .sequencer ∧ s.block.phase = .initXport) ∧
    (s.block.xportEn = true → t.block.xportEn = false → nextTurn s = .resetPin false)) ∧
  ∀ s : State, s.Inv → s.block.ready = true ∨ s.block.phase = .xfer → s.block.xportEn = true

/-- R70, R71: select falls only in ASSERT and rises only in DEASSERT or by block reset, from every state with the invariant. -/
def Obligations.SelectMovesOnlyByRule : Prop :=
  ∀ s t : State, s.Inv → step s = .next t →
    (s.block.csN = true → t.block.csN = false → nextTurn s = .sequencer ∧ s.block.phase = .assert) ∧
    (s.block.csN = false → t.block.csN = true →
      (nextTurn s = .sequencer ∧ s.block.phase = .deassert) ∨ nextTurn s = .resetPin false)

/-- R30: events are appended to the trace in step order, at most one a step, and each by its own step. -/
def Obligations.TraceGrowsByItsOwnSteps : Prop :=
  ∀ s t : State, step s = .next t →
    t.trace = s.trace ∨
    (t.trace = s.trace ++ [.csLow] ∧ nextTurn s = .sequencer ∧ s.block.phase = .assert) ∨
    (∃ tx rx, t.trace = s.trace ++ [.xchg tx rx] ∧ nextTurn s = .transport rx ∧ s.block.phase = .xfer ∧
      s.block.frame[s.block.k.toNat]? = some tx) ∨
    (t.trace = s.trace ++ [.csHigh] ∧
      (nextTurn s = .sequencer ∧ s.block.phase = .deassert ∨ nextTurn s = .resetPin false ∧ s.block.csN = false)) ∨
    (∃ kind i, t.trace = s.trace ++ [.reject kind] ∧ turnInstr (nextTurn s) = some i)

/-! ## Frames -/

/-- R68 (c), R81: at DEASSERT, from every state with the invariant, the open frame of the trace holds exactly the bytes of the latched
frame in order, and the captured byte is the reply to the exchange of the capture index. -/
def Obligations.DeassertClosesExactlyTheFrame : Prop :=
  ∀ s : State, s.Inv → s.block.phase = .deassert →
    ∃ xs, scanTrace s.trace = some (some xs) ∧
      xs.map Prod.fst = frame s.block.op s.block.addr s.block.arg0 s.block.arg1 ∧
      ∀ c, capIdx s.block.op = some c → (xs.map Prod.snd)[c]? = some s.block.cap

/-- R73, R126: from READY and IDLE an accepted command takes one step, then exactly 2 + n sequencer and transport steps, n the length of
its frame; the trace gains exactly its frame with the replies; a capturing command leaves the reply at its capture index in
RESULT with RVALID = 1, any other leaves RESULT alone with RVALID = 0; select is released; RESET is in SETTLE and any other
command in IDLE. -/
def Obligations.CommandRunsExactlyItsFrame : Prop :=
  ∀ (s : State) (i : Instr) (op addr arg0 arg1 : Byte) (line : IntLine) (replies : List Byte) (rest : List Turn),
    s.rstN = true → s.block.phase = .idle → s.block.ready = true → i.WellFormed →
    cmdFields i = some (op, addr, arg0, arg1) → supported op = true →
    replies.length = (frame op addr arg0 arg1).length →
    s.agenda = .host (encode i) line :: .sequencer :: (replies.map Turn.transport ++ .sequencer :: rest) →
    ∃ t, runFor (3 + replies.length) s = .next t ∧
      t.trace = s.trace ++ frameEvents (frame op addr arg0 arg1) replies ∧
      t.block.csN = true ∧ t.block.phase = (if op = 0xC0#8 then .settle else .idle) ∧
      (∀ c, capIdx op = some c → replies[c]? = some t.block.result ∧ t.block.rvalid = true) ∧
      (capIdx op = none → t.block.result = s.block.result ∧ t.block.rvalid = false) ∧
      t.block.ready = true ∧ t.agenda = rest

/-- R93 to R96, R126: from IDLE, INIT takes one step, then INIT_LINES, INIT_XPORT and the steps of the Reset frame with its settle wait; the
trace gains exactly the Reset frame; READY is 1, RESULT is unchanged and RVALID is 0. -/
def Obligations.InitRunsTheResetFrame : Prop :=
  ∀ (s : State) (clr : Bool) (ignored : BitVec 30) (line : IntLine) (reply : Byte) (rest : List Turn),
    s.rstN = true → s.block.phase = .idle →
    s.agenda = .host (encode (.init clr ignored)) line :: .sequencer :: .sequencer :: .sequencer :: .transport reply ::
      .sequencer :: .settleTimer :: rest →
    ∃ t, runFor 7 s = .next t ∧
      t.trace = s.trace ++ [.csLow, .xchg 0xC0#8 reply, .csHigh] ∧
      t.block.phase = .idle ∧ t.block.ready = true ∧ t.block.xportEn = true ∧ t.block.initMode = false ∧
      t.block.csN = true ∧ t.block.rvalid = false ∧ t.block.result = s.block.result ∧ t.agenda = rest

/-- R76, R79, R80, R88: a READ, READ_STATUS or RX_STATUS followed by a read of RESULT returns the reply of the third, or second, exchange
unmodified, for every reply. -/
def Obligations.CapturedReplyIsReturnedUnmodified : Prop :=
  ∀ (s : State) (addr arg0 arg1 r0 r1 r2 : Byte) (line : IntLine) (rest : List Turn),
    s.rstN = true → s.block.phase = .idle → s.block.ready = true →
    (s.agenda = [.host (encode (.read addr arg0 arg1)) line, .sequencer, .transport r0, .transport r1, .transport r2,
        .sequencer, .host (encode .rdResult) line] ++ rest →
      ∃ t, runFor 7 s = .next t ∧ t.reads = s.reads ++ [r2.setWidth 32]) ∧
    (s.agenda = [.host (encode (.readStatus addr arg0 arg1)) line, .sequencer, .transport r0, .transport r1,
        .sequencer, .host (encode .rdResult) line] ++ rest →
      ∃ t, runFor 6 s = .next t ∧ t.reads = s.reads ++ [r1.setWidth 32]) ∧
    (s.agenda = [.host (encode (.rxStatus addr arg0 arg1)) line, .sequencer, .transport r0, .transport r1,
        .sequencer, .host (encode .rdResult) line] ++ rest →
      ∃ t, runFor 6 s = .next t ∧ t.reads = s.reads ++ [r1.setWidth 32])

/-- R63, R105: as long as neither the transport nor the reset pin moves, an exchange in progress stays where it is: the phase, the index
and select do not change, however many host accesses and other turns come, and the bus sees no event. -/
def Obligations.HangLastsUntilTransportOrReset : Prop :=
  ∀ (n : Nat) (s t : State), s.rstN = true → s.block.phase = .xfer → n ≤ s.agenda.length →
    (∀ u ∈ s.agenda.take n, (∀ rx, u ≠ .transport rx) ∧ u ≠ .resetPin false) →
    runFor n s = .next t →
    t.block.phase = .xfer ∧ t.block.csN = s.block.csN ∧ t.block.k = s.block.k ∧
      busEvents t.trace = busEvents s.trace

/-- R73, R101, R36: while the phase is not IDLE a host access changes nothing of the block but the error flags, and adds no bus event. -/
def Obligations.HostCannotDisturbAFrame : Prop :=
  ∀ s t : State, s.rstN = true → s.block.phase ≠ .idle → agentOf (nextTurn s) = .host → step s = .next t →
    t.block = { s.block with
      errBusy := t.block.errBusy, errNotReady := t.block.errNotReady, errBadOp := t.block.errBadOp } ∧
    busEvents t.trace = busEvents s.trace

/-- R42: in a state with the invariant, BUSY = 0 means that no frame is open, select is released, the settle timer is stopped and no INIT
is going on. That the timer is stopped in IDLE is the model's (log entry 10): no rule says when it stops. -/
def Obligations.IdleIsTheCompletionPoint : Prop :=
  ∀ s : State, s.Inv → (statusWord s).getLsbD 0 = false →
    s.block.csN = true ∧ scanTrace s.trace = some none ∧ s.block.settle = .stopped ∧ s.block.initMode = false

/-- R43, R73, R126: nothing but the transport and the settle timer stands between a command and its end: from every state with the invariant
and the reset pin high, at most six turns of the block's own agents lead to IDLE. -/
def Obligations.BusyEndsWithinSixTurns : Prop :=
  ∀ s : State, s.Inv → s.rstN = true →
    ∃ turns : List Turn, turns.length ≤ 6 ∧
      (∀ u ∈ turns, agentOf u ≠ .host ∧ agentOf u ≠ .resetPin) ∧
      ∀ rest, ∃ t, runFor turns.length { s with agenda := turns ++ rest } = .next t ∧ t.block.phase = .idle

/-- R37, R45, R53: on the reference peripheral, which is outside the block, the frame of BIT_MODIFY changes exactly the bits of the mask,
to those of the data; the frame of WRITE stores the value; and after either the frame of READ is answered with the register. It is
about one environment, and no statement about the block rests on it. -/
def Obligations.ReferencePeripheralBitModify : Prop :=
  ∀ (p : RefPeripheral) (a mask data : Byte),
    (∀ n, ((p.after (frame 0x05#8 a mask data)).reg a).getLsbD n =
      if mask.getLsbD n then data.getLsbD n else (p.reg a).getLsbD n) ∧
    (∀ b : Byte, b ≠ a → (p.after (frame 0x05#8 a mask data)).reg b = p.reg b) ∧
    (p.after (frame 0x02#8 a data 0x00#8)).reg a = data ∧
    (∀ b : Byte, b ≠ a → (p.after (frame 0x02#8 a data 0x00#8)).reg b = p.reg b) ∧
    (p.replies (frame 0x03#8 a 0x00#8 0x00#8))[2]? = some (p.reg a)
end

