-- ==== Sys2Proof/Laws/Decode.lean ====
section
/-! SUPPORT. The fields of the words the encoder builds, and the opcode constants read back. -/

namespace Sys2Proof

theorem cmdWord_getLsbD (o a v d : Byte) (i : Nat) : (cmdWord o a v d).getLsbD i =
    if i < 8 then o.getLsbD i else if i < 16 then a.getLsbD (i - 8) else if i < 24 then v.getLsbD (i - 16)
    else d.getLsbD (i - 24) := by
  unfold cmdWord
  rw [BitVec.getLsbD_append (x := d ++ v ++ a), BitVec.getLsbD_append (x := d ++ v), BitVec.getLsbD_append (x := d)]
  simp only [Nat.sub_sub, Nat.reduceAdd]
  split_ifs <;> first | rfl | omega

@[simp] theorem cmdOp_cmdWord (o a v d : Byte) : cmdOp (cmdWord o a v d) = o := by
  ext i hi; simp [cmdOp, cmdWord_getLsbD, hi]

@[simp] theorem cmdAddr_cmdWord (o a v d : Byte) : cmdAddr (cmdWord o a v d) = a := by
  ext i hi; simp [cmdAddr, cmdWord_getLsbD, show 8 + i < 16 by omega, hi]

@[simp] theorem cmdArg0_cmdWord (o a v d : Byte) : cmdArg0 (cmdWord o a v d) = v := by
  ext i hi; simp [cmdArg0, cmdWord_getLsbD, show ¬ 16 + i < 8 by omega, show 16 + i < 24 by omega, hi]

@[simp] theorem cmdArg1_cmdWord (o a v d : Byte) : cmdArg1 (cmdWord o a v d) = d := by
  ext i hi
  simp [cmdArg1, cmdWord_getLsbD, show ¬ 24 + i < 8 by omega, show ¬ 24 + i < 16 by omega, hi]

/-- A CMD word is its four fields and nothing else (R47). -/
theorem cmdWord_fields (w : Word) : cmdWord (cmdOp w) (cmdAddr w) (cmdArg0 w) (cmdArg1 w) = w := by
  apply BitVec.eq_of_getLsbD_eq
  intro i hi
  simp only [cmdWord_getLsbD, cmdOp, cmdAddr, cmdArg0, cmdArg1, BitVec.getLsbD_extractLsb']
  split_ifs with h1 h2 h3
  · simp [h1]
  · simp [show i - 8 < 8 by omega, show 8 + (i - 8) = i by omega]
  · simp [show i - 16 < 8 by omega, show 16 + (i - 16) = i by omega]
  · simp [show i - 24 < 8 by omega, show 24 + (i - 24) = i by omega]

theorem ctrlWord_getLsbD (i c : Bool) (g : BitVec 30) (n : Nat) : (ctrlWord i c g).getLsbD n =
    if n = 0 then i else if n = 1 then c else g.getLsbD (n - 2) := by
  unfold ctrlWord
  rw [BitVec.getLsbD_append (x := g ++ BitVec.ofBool c), BitVec.getLsbD_append (x := g)]
  rcases n with _ | _ | n <;> simp

@[simp] theorem ctrlWord_init (i c : Bool) (g : BitVec 30) : (ctrlWord i c g)[0] = i := by
  rw [← BitVec.getLsbD_eq_getElem]; rw [ctrlWord_getLsbD]; rfl

@[simp] theorem ctrlWord_clr (i c : Bool) (g : BitVec 30) : (ctrlWord i c g)[1] = c := by
  rw [← BitVec.getLsbD_eq_getElem]; rw [ctrlWord_getLsbD]; rfl

@[simp] theorem ctrlWord_ignored (i c : Bool) (g : BitVec 30) : (ctrlWord i c g).extractLsb' 2 30 = g := by
  ext n hn
  simp [ctrlWord_getLsbD, show ¬ 2 + n = 1 by omega, hn]

/-- A CTRL word is its two bits and the ignored ones (R48). -/
theorem ctrlWord_fields (w : Word) : ctrlWord (w.getLsbD 0) (w.getLsbD 1) (w.extractLsb' 2 30) = w := by
  apply BitVec.eq_of_getLsbD_eq
  intro n hn
  rw [ctrlWord_getLsbD]
  rcases n with _ | _ | n
  · simp
  · simp
  · simp only [Nat.add_eq_zero_iff, BitVec.getLsbD_extractLsb']
    simp [show 2 + n = n + 1 + 1 by omega, show n < 30 by omega]

@[simp] theorem opcodeOf_byte (o : Opcode) : opcodeOf (Opcode.byte o) = some o := by cases o <;> decide

/-- The byte an opcode was read from is its constant (R51: an exact match of all 8 bits). -/
theorem byte_of_opcodeOf (b : Byte) (o : Opcode) (h : opcodeOf b = some o) : Opcode.byte o = b := by
  unfold opcodeOf at h
  split_ifs at h <;> simp_all

/-- SUPPORTED by its six members (R51). -/
theorem supported_iff (op : Byte) : supported op = true ↔
    op = 0xC0#8 ∨ op = 0x03#8 ∨ op = 0x02#8 ∨ op = 0x05#8 ∨ op = 0xA0#8 ∨ op = 0xB0#8 := by
  simp [supported, supportedOps]

end Sys2Proof
end

