-- ==== Sys2Proof/Laws/State.lean ====
section
/-! SUPPORT. One lemma per field per update of the state and of the block, so that no later proof unfolds a record update. -/

namespace Sys2Proof.Machine

/-! ### emit -/

@[simp] theorem emit_block (e : Event) (s : State) : (emit e s).block = s.block := rfl
@[simp] theorem emit_trace (e : Event) (s : State) : (emit e s).trace = s.trace ++ [e] := rfl
@[simp] theorem emit_reads (e : Event) (s : State) : (emit e s).reads = s.reads := rfl
@[simp] theorem emit_rstN (e : Event) (s : State) : (emit e s).rstN = s.rstN := rfl
@[simp] theorem emit_intLine (e : Event) (s : State) : (emit e s).intLine = s.intLine := rfl
@[simp] theorem emit_agenda (e : Event) (s : State) : (emit e s).agenda = s.agenda := rfl
@[simp] theorem emit_draws (e : Event) (s : State) : (emit e s).draws = s.draws := rfl

/-! ### answer -/

@[simp] theorem answer_block (w : Word) (s : State) : (answer w s).block = s.block := rfl
@[simp] theorem answer_trace (w : Word) (s : State) : (answer w s).trace = s.trace := rfl
@[simp] theorem answer_reads (w : Word) (s : State) : (answer w s).reads = s.reads ++ [w] := rfl
@[simp] theorem answer_rstN (w : Word) (s : State) : (answer w s).rstN = s.rstN := rfl
@[simp] theorem answer_intLine (w : Word) (s : State) : (answer w s).intLine = s.intLine := rfl
@[simp] theorem answer_agenda (w : Word) (s : State) : (answer w s).agenda = s.agenda := rfl
@[simp] theorem answer_draws (w : Word) (s : State) : (answer w s).draws = s.draws := rfl

/-! ### onBlock -/

@[simp] theorem onBlock_block (f : Block → Block) (s : State) : (onBlock f s).block = f s.block := rfl
@[simp] theorem onBlock_trace (f : Block → Block) (s : State) : (onBlock f s).trace = s.trace := rfl
@[simp] theorem onBlock_reads (f : Block → Block) (s : State) : (onBlock f s).reads = s.reads := rfl
@[simp] theorem onBlock_rstN (f : Block → Block) (s : State) : (onBlock f s).rstN = s.rstN := rfl
@[simp] theorem onBlock_intLine (f : Block → Block) (s : State) : (onBlock f s).intLine = s.intLine := rfl
@[simp] theorem onBlock_agenda (f : Block → Block) (s : State) : (onBlock f s).agenda = s.agenda := rfl
@[simp] theorem onBlock_draws (f : Block → Block) (s : State) : (onBlock f s).draws = s.draws := rfl

/-! ### raise -/

@[simp] theorem raise_block (kind : ErrKind) (s : State) : (raise kind s).block = s.block.setErr kind := rfl
@[simp] theorem raise_trace (kind : ErrKind) (s : State) : (raise kind s).trace = s.trace ++ [.reject kind] := rfl
@[simp] theorem raise_reads (kind : ErrKind) (s : State) : (raise kind s).reads = s.reads := rfl
@[simp] theorem raise_rstN (kind : ErrKind) (s : State) : (raise kind s).rstN = s.rstN := rfl
@[simp] theorem raise_intLine (kind : ErrKind) (s : State) : (raise kind s).intLine = s.intLine := rfl
@[simp] theorem raise_agenda (kind : ErrKind) (s : State) : (raise kind s).agenda = s.agenda := rfl
@[simp] theorem raise_draws (kind : ErrKind) (s : State) : (raise kind s).draws = s.draws := rfl

/-! ### clearErrors -/

@[simp] theorem clearErrors_block  (s : State) : (clearErrors s).block = s.block.clearErrs := rfl
@[simp] theorem clearErrors_trace  (s : State) : (clearErrors s).trace = s.trace := rfl
@[simp] theorem clearErrors_reads  (s : State) : (clearErrors s).reads = s.reads := rfl
@[simp] theorem clearErrors_rstN  (s : State) : (clearErrors s).rstN = s.rstN := rfl
@[simp] theorem clearErrors_intLine  (s : State) : (clearErrors s).intLine = s.intLine := rfl
@[simp] theorem clearErrors_agenda  (s : State) : (clearErrors s).agenda = s.agenda := rfl
@[simp] theorem clearErrors_draws  (s : State) : (clearErrors s).draws = s.draws := rfl

/-! ### assertReset -/

@[simp] theorem assertReset_block  (s : State) : (assertReset s).block = Block.reset := rfl
@[simp] theorem assertReset_trace  (s : State) : (assertReset s).trace = resetTrace s := rfl
@[simp] theorem assertReset_reads  (s : State) : (assertReset s).reads = s.reads := rfl
@[simp] theorem assertReset_rstN  (s : State) : (assertReset s).rstN = false := rfl
@[simp] theorem assertReset_intLine  (s : State) : (assertReset s).intLine = s.intLine := rfl
@[simp] theorem assertReset_agenda  (s : State) : (assertReset s).agenda = s.agenda := rfl
@[simp] theorem assertReset_draws  (s : State) : (assertReset s).draws = s.draws := rfl

/-! ### sampleInt -/

@[simp] theorem sampleInt_block (line : IntLine) (s : State) : (sampleInt line s).block = s.block := rfl
@[simp] theorem sampleInt_trace (line : IntLine) (s : State) : (sampleInt line s).trace = s.trace := rfl
@[simp] theorem sampleInt_reads (line : IntLine) (s : State) : (sampleInt line s).reads = s.reads := rfl
@[simp] theorem sampleInt_rstN (line : IntLine) (s : State) : (sampleInt line s).rstN = s.rstN := rfl
@[simp] theorem sampleInt_intLine (line : IntLine) (s : State) : (sampleInt line s).intLine = line := rfl
@[simp] theorem sampleInt_agenda (line : IntLine) (s : State) : (sampleInt line s).agenda = s.agenda := rfl
@[simp] theorem sampleInt_draws (line : IntLine) (s : State) : (sampleInt line s).draws = s.draws := rfl

/-! ### placeRequest -/

@[simp] theorem placeRequest_block (r : HostRequest) (s : State) : (placeRequest r s).block = s.block := rfl
@[simp] theorem placeRequest_trace (r : HostRequest) (s : State) : (placeRequest r s).trace = s.trace := rfl
@[simp] theorem placeRequest_reads (r : HostRequest) (s : State) : (placeRequest r s).reads = s.reads := rfl
@[simp] theorem placeRequest_rstN (r : HostRequest) (s : State) : (placeRequest r s).rstN = true := rfl
@[simp] theorem placeRequest_intLine (r : HostRequest) (s : State) : (placeRequest r s).intLine = s.intLine := rfl
@[simp] theorem placeRequest_agenda (r : HostRequest) (s : State) : (placeRequest r s).agenda = .host r s.intLine :: s.agenda := rfl
@[simp] theorem placeRequest_draws (r : HostRequest) (s : State) : (placeRequest r s).draws = s.draws := rfl

/-! ### takeTurn -/

@[simp] theorem takeTurn_block (s : State) : (takeTurn s).block = s.block := by
  unfold takeTurn; split <;> rfl
@[simp] theorem takeTurn_trace (s : State) : (takeTurn s).trace = s.trace := by
  unfold takeTurn; split <;> rfl
@[simp] theorem takeTurn_reads (s : State) : (takeTurn s).reads = s.reads := by
  unfold takeTurn; split <;> rfl
@[simp] theorem takeTurn_rstN (s : State) : (takeTurn s).rstN = s.rstN := by
  unfold takeTurn; split <;> rfl
@[simp] theorem takeTurn_intLine (s : State) : (takeTurn s).intLine = s.intLine := by
  unfold takeTurn; split <;> rfl
/-- With a turn on the agenda, the next turn is that one. -/
theorem nextTurn_cons (s : State) (t : Turn) (rest : List Turn) (h : s.agenda = t :: rest) : nextTurn s = t := by
  simp [nextTurn, h]
/-- With a turn on the agenda, taking it removes it and changes nothing else. -/
theorem takeTurn_cons (s : State) (t : Turn) (rest : List Turn) (h : s.agenda = t :: rest) :
    takeTurn s = { s with agenda := rest } := by
  simp [takeTurn, h]

/-! ### Block.setErr -/

@[simp] theorem block_setErr_csN (kind : ErrKind) (b : Block) : (b.setErr kind).csN = b.csN := by
  cases kind <;> simp [Block.setErr]
@[simp] theorem block_setErr_sck (kind : ErrKind) (b : Block) : (b.setErr kind).sck = b.sck := by
  cases kind <;> simp [Block.setErr]
@[simp] theorem block_setErr_mosi (kind : ErrKind) (b : Block) : (b.setErr kind).mosi = b.mosi := by
  cases kind <;> simp [Block.setErr]
@[simp] theorem block_setErr_pullUp (kind : ErrKind) (b : Block) : (b.setErr kind).pullUp = b.pullUp := by
  cases kind <;> simp [Block.setErr]
@[simp] theorem block_setErr_phase (kind : ErrKind) (b : Block) : (b.setErr kind).phase = b.phase := by
  cases kind <;> simp [Block.setErr]
@[simp] theorem block_setErr_op (kind : ErrKind) (b : Block) : (b.setErr kind).op = b.op := by
  cases kind <;> simp [Block.setErr]
@[simp] theorem block_setErr_addr (kind : ErrKind) (b : Block) : (b.setErr kind).addr = b.addr := by
  cases kind <;> simp [Block.setErr]
@[simp] theorem block_setErr_arg0 (kind : ErrKind) (b : Block) : (b.setErr kind).arg0 = b.arg0 := by
  cases kind <;> simp [Block.setErr]
@[simp] theorem block_setErr_arg1 (kind : ErrKind) (b : Block) : (b.setErr kind).arg1 = b.arg1 := by
  cases kind <;> simp [Block.setErr]
@[simp] theorem block_setErr_k (kind : ErrKind) (b : Block) : (b.setErr kind).k = b.k := by
  cases kind <;> simp [Block.setErr]
@[simp] theorem block_setErr_cap (kind : ErrKind) (b : Block) : (b.setErr kind).cap = b.cap := by
  cases kind <;> simp [Block.setErr]
@[simp] theorem block_setErr_result (kind : ErrKind) (b : Block) : (b.setErr kind).result = b.result := by
  cases kind <;> simp [Block.setErr]
@[simp] theorem block_setErr_ready (kind : ErrKind) (b : Block) : (b.setErr kind).ready = b.ready := by
  cases kind <;> simp [Block.setErr]
@[simp] theorem block_setErr_rvalid (kind : ErrKind) (b : Block) : (b.setErr kind).rvalid = b.rvalid := by
  cases kind <;> simp [Block.setErr]
@[simp] theorem block_setErr_errBusy (kind : ErrKind) (b : Block) : (b.setErr kind).errBusy = (b.errBusy || decide (kind = .busy)) := by
  cases kind <;> simp [Block.setErr]
@[simp] theorem block_setErr_errNotReady (kind : ErrKind) (b : Block) : (b.setErr kind).errNotReady = (b.errNotReady || decide (kind = .notReady)) := by
  cases kind <;> simp [Block.setErr]
@[simp] theorem block_setErr_errBadOp (kind : ErrKind) (b : Block) : (b.setErr kind).errBadOp = (b.errBadOp || decide (kind = .badOp)) := by
  cases kind <;> simp [Block.setErr]
@[simp] theorem block_setErr_xportEn (kind : ErrKind) (b : Block) : (b.setErr kind).xportEn = b.xportEn := by
  cases kind <;> simp [Block.setErr]
@[simp] theorem block_setErr_xferDone (kind : ErrKind) (b : Block) : (b.setErr kind).xferDone = b.xferDone := by
  cases kind <;> simp [Block.setErr]
@[simp] theorem block_setErr_initMode (kind : ErrKind) (b : Block) : (b.setErr kind).initMode = b.initMode := by
  cases kind <;> simp [Block.setErr]
@[simp] theorem block_setErr_settle (kind : ErrKind) (b : Block) : (b.setErr kind).settle = b.settle := by
  cases kind <;> simp [Block.setErr]

/-! ### Block.clearErrs -/

@[simp] theorem block_clearErrs_csN  (b : Block) : (b.clearErrs).csN = b.csN := rfl
@[simp] theorem block_clearErrs_sck  (b : Block) : (b.clearErrs).sck = b.sck := rfl
@[simp] theorem block_clearErrs_mosi  (b : Block) : (b.clearErrs).mosi = b.mosi := rfl
@[simp] theorem block_clearErrs_pullUp  (b : Block) : (b.clearErrs).pullUp = b.pullUp := rfl
@[simp] theorem block_clearErrs_phase  (b : Block) : (b.clearErrs).phase = b.phase := rfl
@[simp] theorem block_clearErrs_op  (b : Block) : (b.clearErrs).op = b.op := rfl
@[simp] theorem block_clearErrs_addr  (b : Block) : (b.clearErrs).addr = b.addr := rfl
@[simp] theorem block_clearErrs_arg0  (b : Block) : (b.clearErrs).arg0 = b.arg0 := rfl
@[simp] theorem block_clearErrs_arg1  (b : Block) : (b.clearErrs).arg1 = b.arg1 := rfl
@[simp] theorem block_clearErrs_k  (b : Block) : (b.clearErrs).k = b.k := rfl
@[simp] theorem block_clearErrs_cap  (b : Block) : (b.clearErrs).cap = b.cap := rfl
@[simp] theorem block_clearErrs_result  (b : Block) : (b.clearErrs).result = b.result := rfl
@[simp] theorem block_clearErrs_ready  (b : Block) : (b.clearErrs).ready = b.ready := rfl
@[simp] theorem block_clearErrs_rvalid  (b : Block) : (b.clearErrs).rvalid = b.rvalid := rfl
@[simp] theorem block_clearErrs_errBusy  (b : Block) : (b.clearErrs).errBusy = false := rfl
@[simp] theorem block_clearErrs_errNotReady  (b : Block) : (b.clearErrs).errNotReady = false := rfl
@[simp] theorem block_clearErrs_errBadOp  (b : Block) : (b.clearErrs).errBadOp = false := rfl
@[simp] theorem block_clearErrs_xportEn  (b : Block) : (b.clearErrs).xportEn = b.xportEn := rfl
@[simp] theorem block_clearErrs_xferDone  (b : Block) : (b.clearErrs).xferDone = b.xferDone := rfl
@[simp] theorem block_clearErrs_initMode  (b : Block) : (b.clearErrs).initMode = b.initMode := rfl
@[simp] theorem block_clearErrs_settle  (b : Block) : (b.clearErrs).settle = b.settle := rfl

/-! ### Block.accept -/

@[simp] theorem block_accept_csN (op addr arg0 arg1 : Byte) (b : Block) : (b.accept op addr arg0 arg1).csN = b.csN := rfl
@[simp] theorem block_accept_sck (op addr arg0 arg1 : Byte) (b : Block) : (b.accept op addr arg0 arg1).sck = b.sck := rfl
@[simp] theorem block_accept_mosi (op addr arg0 arg1 : Byte) (b : Block) : (b.accept op addr arg0 arg1).mosi = b.mosi := rfl
@[simp] theorem block_accept_pullUp (op addr arg0 arg1 : Byte) (b : Block) : (b.accept op addr arg0 arg1).pullUp = b.pullUp := rfl
@[simp] theorem block_accept_phase (op addr arg0 arg1 : Byte) (b : Block) : (b.accept op addr arg0 arg1).phase = .assert := rfl
@[simp] theorem block_accept_op (op addr arg0 arg1 : Byte) (b : Block) : (b.accept op addr arg0 arg1).op = op := rfl
@[simp] theorem block_accept_addr (op addr arg0 arg1 : Byte) (b : Block) : (b.accept op addr arg0 arg1).addr = addr := rfl
@[simp] theorem block_accept_arg0 (op addr arg0 arg1 : Byte) (b : Block) : (b.accept op addr arg0 arg1).arg0 = arg0 := rfl
@[simp] theorem block_accept_arg1 (op addr arg0 arg1 : Byte) (b : Block) : (b.accept op addr arg0 arg1).arg1 = arg1 := rfl
@[simp] theorem block_accept_k (op addr arg0 arg1 : Byte) (b : Block) : (b.accept op addr arg0 arg1).k = b.k := rfl
@[simp] theorem block_accept_cap (op addr arg0 arg1 : Byte) (b : Block) : (b.accept op addr arg0 arg1).cap = b.cap := rfl
@[simp] theorem block_accept_result (op addr arg0 arg1 : Byte) (b : Block) : (b.accept op addr arg0 arg1).result = b.result := rfl
@[simp] theorem block_accept_ready (op addr arg0 arg1 : Byte) (b : Block) : (b.accept op addr arg0 arg1).ready = b.ready := rfl
@[simp] theorem block_accept_rvalid (op addr arg0 arg1 : Byte) (b : Block) : (b.accept op addr arg0 arg1).rvalid = false := rfl
@[simp] theorem block_accept_errBusy (op addr arg0 arg1 : Byte) (b : Block) : (b.accept op addr arg0 arg1).errBusy = b.errBusy := rfl
@[simp] theorem block_accept_errNotReady (op addr arg0 arg1 : Byte) (b : Block) : (b.accept op addr arg0 arg1).errNotReady = b.errNotReady := rfl
@[simp] theorem block_accept_errBadOp (op addr arg0 arg1 : Byte) (b : Block) : (b.accept op addr arg0 arg1).errBadOp = b.errBadOp := rfl
@[simp] theorem block_accept_xportEn (op addr arg0 arg1 : Byte) (b : Block) : (b.accept op addr arg0 arg1).xportEn = b.xportEn := rfl
@[simp] theorem block_accept_xferDone (op addr arg0 arg1 : Byte) (b : Block) : (b.accept op addr arg0 arg1).xferDone = b.xferDone := rfl
@[simp] theorem block_accept_initMode (op addr arg0 arg1 : Byte) (b : Block) : (b.accept op addr arg0 arg1).initMode = b.initMode := rfl
@[simp] theorem block_accept_settle (op addr arg0 arg1 : Byte) (b : Block) : (b.accept op addr arg0 arg1).settle = b.settle := rfl

/-! ### Block.acceptInit -/

@[simp] theorem block_acceptInit_csN  (b : Block) : (b.acceptInit).csN = b.csN := rfl
@[simp] theorem block_acceptInit_sck  (b : Block) : (b.acceptInit).sck = b.sck := rfl
@[simp] theorem block_acceptInit_mosi  (b : Block) : (b.acceptInit).mosi = b.mosi := rfl
@[simp] theorem block_acceptInit_pullUp  (b : Block) : (b.acceptInit).pullUp = b.pullUp := rfl
@[simp] theorem block_acceptInit_phase  (b : Block) : (b.acceptInit).phase = .initLines := rfl
@[simp] theorem block_acceptInit_op  (b : Block) : (b.acceptInit).op = b.op := rfl
@[simp] theorem block_acceptInit_addr  (b : Block) : (b.acceptInit).addr = b.addr := rfl
@[simp] theorem block_acceptInit_arg0  (b : Block) : (b.acceptInit).arg0 = b.arg0 := rfl
@[simp] theorem block_acceptInit_arg1  (b : Block) : (b.acceptInit).arg1 = b.arg1 := rfl
@[simp] theorem block_acceptInit_k  (b : Block) : (b.acceptInit).k = b.k := rfl
@[simp] theorem block_acceptInit_cap  (b : Block) : (b.acceptInit).cap = b.cap := rfl
@[simp] theorem block_acceptInit_result  (b : Block) : (b.acceptInit).result = b.result := rfl
@[simp] theorem block_acceptInit_ready  (b : Block) : (b.acceptInit).ready = false := rfl
@[simp] theorem block_acceptInit_rvalid  (b : Block) : (b.acceptInit).rvalid = false := rfl
@[simp] theorem block_acceptInit_errBusy  (b : Block) : (b.acceptInit).errBusy = b.errBusy := rfl
@[simp] theorem block_acceptInit_errNotReady  (b : Block) : (b.acceptInit).errNotReady = b.errNotReady := rfl
@[simp] theorem block_acceptInit_errBadOp  (b : Block) : (b.acceptInit).errBadOp = b.errBadOp := rfl
@[simp] theorem block_acceptInit_xportEn  (b : Block) : (b.acceptInit).xportEn = b.xportEn := rfl
@[simp] theorem block_acceptInit_xferDone  (b : Block) : (b.acceptInit).xferDone = b.xferDone := rfl
@[simp] theorem block_acceptInit_initMode  (b : Block) : (b.acceptInit).initMode = true := rfl
@[simp] theorem block_acceptInit_settle  (b : Block) : (b.acceptInit).settle = b.settle := rfl

/-! ### Block.initLines -/

@[simp] theorem block_initLines_csN  (b : Block) : (b.initLines).csN = true := rfl
@[simp] theorem block_initLines_sck  (b : Block) : (b.initLines).sck = false := rfl
@[simp] theorem block_initLines_mosi  (b : Block) : (b.initLines).mosi = false := rfl
@[simp] theorem block_initLines_pullUp  (b : Block) : (b.initLines).pullUp = b.pullUp := rfl
@[simp] theorem block_initLines_phase  (b : Block) : (b.initLines).phase = .initXport := rfl
@[simp] theorem block_initLines_op  (b : Block) : (b.initLines).op = b.op := rfl
@[simp] theorem block_initLines_addr  (b : Block) : (b.initLines).addr = b.addr := rfl
@[simp] theorem block_initLines_arg0  (b : Block) : (b.initLines).arg0 = b.arg0 := rfl
@[simp] theorem block_initLines_arg1  (b : Block) : (b.initLines).arg1 = b.arg1 := rfl
@[simp] theorem block_initLines_k  (b : Block) : (b.initLines).k = b.k := rfl
@[simp] theorem block_initLines_cap  (b : Block) : (b.initLines).cap = b.cap := rfl
@[simp] theorem block_initLines_result  (b : Block) : (b.initLines).result = b.result := rfl
@[simp] theorem block_initLines_ready  (b : Block) : (b.initLines).ready = b.ready := rfl
@[simp] theorem block_initLines_rvalid  (b : Block) : (b.initLines).rvalid = b.rvalid := rfl
@[simp] theorem block_initLines_errBusy  (b : Block) : (b.initLines).errBusy = b.errBusy := rfl
@[simp] theorem block_initLines_errNotReady  (b : Block) : (b.initLines).errNotReady = b.errNotReady := rfl
@[simp] theorem block_initLines_errBadOp  (b : Block) : (b.initLines).errBadOp = b.errBadOp := rfl
@[simp] theorem block_initLines_xportEn  (b : Block) : (b.initLines).xportEn = b.xportEn := rfl
@[simp] theorem block_initLines_xferDone  (b : Block) : (b.initLines).xferDone = b.xferDone := rfl
@[simp] theorem block_initLines_initMode  (b : Block) : (b.initLines).initMode = b.initMode := rfl
@[simp] theorem block_initLines_settle  (b : Block) : (b.initLines).settle = b.settle := rfl

/-! ### Block.initXport -/

@[simp] theorem block_initXport_csN  (b : Block) : (b.initXport).csN = b.csN := rfl
@[simp] theorem block_initXport_sck  (b : Block) : (b.initXport).sck = b.sck := rfl
@[simp] theorem block_initXport_mosi  (b : Block) : (b.initXport).mosi = b.mosi := rfl
@[simp] theorem block_initXport_pullUp  (b : Block) : (b.initXport).pullUp = b.pullUp := rfl
@[simp] theorem block_initXport_phase  (b : Block) : (b.initXport).phase = .assert := rfl
@[simp] theorem block_initXport_op  (b : Block) : (b.initXport).op = 0xC0#8 := rfl
@[simp] theorem block_initXport_addr  (b : Block) : (b.initXport).addr = b.addr := rfl
@[simp] theorem block_initXport_arg0  (b : Block) : (b.initXport).arg0 = b.arg0 := rfl
@[simp] theorem block_initXport_arg1  (b : Block) : (b.initXport).arg1 = b.arg1 := rfl
@[simp] theorem block_initXport_k  (b : Block) : (b.initXport).k = b.k := rfl
@[simp] theorem block_initXport_cap  (b : Block) : (b.initXport).cap = b.cap := rfl
@[simp] theorem block_initXport_result  (b : Block) : (b.initXport).result = b.result := rfl
@[simp] theorem block_initXport_ready  (b : Block) : (b.initXport).ready = b.ready := rfl
@[simp] theorem block_initXport_rvalid  (b : Block) : (b.initXport).rvalid = b.rvalid := rfl
@[simp] theorem block_initXport_errBusy  (b : Block) : (b.initXport).errBusy = b.errBusy := rfl
@[simp] theorem block_initXport_errNotReady  (b : Block) : (b.initXport).errNotReady = b.errNotReady := rfl
@[simp] theorem block_initXport_errBadOp  (b : Block) : (b.initXport).errBadOp = b.errBadOp := rfl
@[simp] theorem block_initXport_xportEn  (b : Block) : (b.initXport).xportEn = true := rfl
@[simp] theorem block_initXport_xferDone  (b : Block) : (b.initXport).xferDone = false := rfl
@[simp] theorem block_initXport_initMode  (b : Block) : (b.initXport).initMode = b.initMode := rfl
@[simp] theorem block_initXport_settle  (b : Block) : (b.initXport).settle = b.settle := rfl

/-! ### Block.assert -/

@[simp] theorem block_assert_csN  (b : Block) : (b.assert).csN = false := rfl
@[simp] theorem block_assert_sck  (b : Block) : (b.assert).sck = b.sck := rfl
@[simp] theorem block_assert_mosi  (b : Block) : (b.assert).mosi = b.mosi := rfl
@[simp] theorem block_assert_pullUp  (b : Block) : (b.assert).pullUp = b.pullUp := rfl
@[simp] theorem block_assert_phase  (b : Block) : (b.assert).phase = .xfer := rfl
@[simp] theorem block_assert_op  (b : Block) : (b.assert).op = b.op := rfl
@[simp] theorem block_assert_addr  (b : Block) : (b.assert).addr = b.addr := rfl
@[simp] theorem block_assert_arg0  (b : Block) : (b.assert).arg0 = b.arg0 := rfl
@[simp] theorem block_assert_arg1  (b : Block) : (b.assert).arg1 = b.arg1 := rfl
@[simp] theorem block_assert_k  (b : Block) : (b.assert).k = 0#3 := rfl
@[simp] theorem block_assert_cap  (b : Block) : (b.assert).cap = b.cap := rfl
@[simp] theorem block_assert_result  (b : Block) : (b.assert).result = b.result := rfl
@[simp] theorem block_assert_ready  (b : Block) : (b.assert).ready = b.ready := rfl
@[simp] theorem block_assert_rvalid  (b : Block) : (b.assert).rvalid = b.rvalid := rfl
@[simp] theorem block_assert_errBusy  (b : Block) : (b.assert).errBusy = b.errBusy := rfl
@[simp] theorem block_assert_errNotReady  (b : Block) : (b.assert).errNotReady = b.errNotReady := rfl
@[simp] theorem block_assert_errBadOp  (b : Block) : (b.assert).errBadOp = b.errBadOp := rfl
@[simp] theorem block_assert_xportEn  (b : Block) : (b.assert).xportEn = b.xportEn := rfl
@[simp] theorem block_assert_xferDone  (b : Block) : (b.assert).xferDone = false := rfl
@[simp] theorem block_assert_initMode  (b : Block) : (b.assert).initMode = b.initMode := rfl
@[simp] theorem block_assert_settle  (b : Block) : (b.assert).settle = b.settle := rfl

/-! ### Block.deassert -/

@[simp] theorem block_deassert_csN  (b : Block) : (b.deassert).csN = true := rfl
@[simp] theorem block_deassert_sck  (b : Block) : (b.deassert).sck = b.sck := rfl
@[simp] theorem block_deassert_mosi  (b : Block) : (b.deassert).mosi = b.mosi := rfl
@[simp] theorem block_deassert_pullUp  (b : Block) : (b.deassert).pullUp = b.pullUp := rfl
@[simp] theorem block_deassert_phase  (b : Block) : (b.deassert).phase = (if b.op = 0xC0#8 then .settle else .idle) := rfl
@[simp] theorem block_deassert_op  (b : Block) : (b.deassert).op = b.op := rfl
@[simp] theorem block_deassert_addr  (b : Block) : (b.deassert).addr = b.addr := rfl
@[simp] theorem block_deassert_arg0  (b : Block) : (b.deassert).arg0 = b.arg0 := rfl
@[simp] theorem block_deassert_arg1  (b : Block) : (b.deassert).arg1 = b.arg1 := rfl
@[simp] theorem block_deassert_k  (b : Block) : (b.deassert).k = b.k := rfl
@[simp] theorem block_deassert_cap  (b : Block) : (b.deassert).cap = b.cap := rfl
@[simp] theorem block_deassert_result  (b : Block) : (b.deassert).result = (if (capIdx b.op).isSome then b.cap else b.result) := rfl
@[simp] theorem block_deassert_ready  (b : Block) : (b.deassert).ready = b.ready := rfl
@[simp] theorem block_deassert_rvalid  (b : Block) : (b.deassert).rvalid = (if (capIdx b.op).isSome then true else b.rvalid) := rfl
@[simp] theorem block_deassert_errBusy  (b : Block) : (b.deassert).errBusy = b.errBusy := rfl
@[simp] theorem block_deassert_errNotReady  (b : Block) : (b.deassert).errNotReady = b.errNotReady := rfl
@[simp] theorem block_deassert_errBadOp  (b : Block) : (b.deassert).errBadOp = b.errBadOp := rfl
@[simp] theorem block_deassert_xportEn  (b : Block) : (b.deassert).xportEn = b.xportEn := rfl
@[simp] theorem block_deassert_xferDone  (b : Block) : (b.deassert).xferDone = b.xferDone := rfl
@[simp] theorem block_deassert_initMode  (b : Block) : (b.deassert).initMode = b.initMode := rfl
@[simp] theorem block_deassert_settle  (b : Block) : (b.deassert).settle = (if b.op = 0xC0#8 then .running else b.settle) := rfl

/-! ### Block.endSettle -/

@[simp] theorem block_endSettle_csN  (b : Block) : (b.endSettle).csN = b.csN := rfl
@[simp] theorem block_endSettle_sck  (b : Block) : (b.endSettle).sck = b.sck := rfl
@[simp] theorem block_endSettle_mosi  (b : Block) : (b.endSettle).mosi = b.mosi := rfl
@[simp] theorem block_endSettle_pullUp  (b : Block) : (b.endSettle).pullUp = b.pullUp := rfl
@[simp] theorem block_endSettle_phase  (b : Block) : (b.endSettle).phase = .idle := rfl
@[simp] theorem block_endSettle_op  (b : Block) : (b.endSettle).op = b.op := rfl
@[simp] theorem block_endSettle_addr  (b : Block) : (b.endSettle).addr = b.addr := rfl
@[simp] theorem block_endSettle_arg0  (b : Block) : (b.endSettle).arg0 = b.arg0 := rfl
@[simp] theorem block_endSettle_arg1  (b : Block) : (b.endSettle).arg1 = b.arg1 := rfl
@[simp] theorem block_endSettle_k  (b : Block) : (b.endSettle).k = b.k := rfl
@[simp] theorem block_endSettle_cap  (b : Block) : (b.endSettle).cap = b.cap := rfl
@[simp] theorem block_endSettle_result  (b : Block) : (b.endSettle).result = b.result := rfl
@[simp] theorem block_endSettle_ready  (b : Block) : (b.endSettle).ready = (if b.initMode then true else b.ready) := rfl
@[simp] theorem block_endSettle_rvalid  (b : Block) : (b.endSettle).rvalid = b.rvalid := rfl
@[simp] theorem block_endSettle_errBusy  (b : Block) : (b.endSettle).errBusy = b.errBusy := rfl
@[simp] theorem block_endSettle_errNotReady  (b : Block) : (b.endSettle).errNotReady = b.errNotReady := rfl
@[simp] theorem block_endSettle_errBadOp  (b : Block) : (b.endSettle).errBadOp = b.errBadOp := rfl
@[simp] theorem block_endSettle_xportEn  (b : Block) : (b.endSettle).xportEn = b.xportEn := rfl
@[simp] theorem block_endSettle_xferDone  (b : Block) : (b.endSettle).xferDone = b.xferDone := rfl
@[simp] theorem block_endSettle_initMode  (b : Block) : (b.endSettle).initMode = false := rfl
@[simp] theorem block_endSettle_settle  (b : Block) : (b.endSettle).settle = .stopped := rfl

/-! ### Block.complete -/

@[simp] theorem block_complete_csN (rx : Byte) (b : Block) : (b.complete rx).csN = b.csN := rfl
@[simp] theorem block_complete_sck (rx : Byte) (b : Block) : (b.complete rx).sck = b.sck := rfl
@[simp] theorem block_complete_mosi (rx : Byte) (b : Block) : (b.complete rx).mosi = b.mosi := rfl
@[simp] theorem block_complete_pullUp (rx : Byte) (b : Block) : (b.complete rx).pullUp = b.pullUp := rfl
@[simp] theorem block_complete_phase (rx : Byte) (b : Block) : (b.complete rx).phase = (if b.k.toNat + 1 = b.frame.length then .deassert else .xfer) := rfl
@[simp] theorem block_complete_op (rx : Byte) (b : Block) : (b.complete rx).op = b.op := rfl
@[simp] theorem block_complete_addr (rx : Byte) (b : Block) : (b.complete rx).addr = b.addr := rfl
@[simp] theorem block_complete_arg0 (rx : Byte) (b : Block) : (b.complete rx).arg0 = b.arg0 := rfl
@[simp] theorem block_complete_arg1 (rx : Byte) (b : Block) : (b.complete rx).arg1 = b.arg1 := rfl
@[simp] theorem block_complete_k (rx : Byte) (b : Block) : (b.complete rx).k = b.k + 1#3 := rfl
@[simp] theorem block_complete_cap (rx : Byte) (b : Block) : (b.complete rx).cap = (if capIdx b.op = some b.k.toNat then rx else b.cap) := rfl
@[simp] theorem block_complete_result (rx : Byte) (b : Block) : (b.complete rx).result = b.result := rfl
@[simp] theorem block_complete_ready (rx : Byte) (b : Block) : (b.complete rx).ready = b.ready := rfl
@[simp] theorem block_complete_rvalid (rx : Byte) (b : Block) : (b.complete rx).rvalid = b.rvalid := rfl
@[simp] theorem block_complete_errBusy (rx : Byte) (b : Block) : (b.complete rx).errBusy = b.errBusy := rfl
@[simp] theorem block_complete_errNotReady (rx : Byte) (b : Block) : (b.complete rx).errNotReady = b.errNotReady := rfl
@[simp] theorem block_complete_errBadOp (rx : Byte) (b : Block) : (b.complete rx).errBadOp = b.errBadOp := rfl
@[simp] theorem block_complete_xportEn (rx : Byte) (b : Block) : (b.complete rx).xportEn = b.xportEn := rfl
@[simp] theorem block_complete_xferDone (rx : Byte) (b : Block) : (b.complete rx).xferDone = decide (b.k.toNat + 1 = b.frame.length) := rfl
@[simp] theorem block_complete_initMode (rx : Byte) (b : Block) : (b.complete rx).initMode = b.initMode := rfl
@[simp] theorem block_complete_settle (rx : Byte) (b : Block) : (b.complete rx).settle = b.settle := rfl

/-! ### Block.drive -/

@[simp] theorem block_drive_csN (p : Pins) (b : Block) : (b.drive p).csN = b.csN := rfl
@[simp] theorem block_drive_sck (p : Pins) (b : Block) : (b.drive p).sck = p.sck := rfl
@[simp] theorem block_drive_mosi (p : Pins) (b : Block) : (b.drive p).mosi = p.mosi := rfl
@[simp] theorem block_drive_pullUp (p : Pins) (b : Block) : (b.drive p).pullUp = b.pullUp := rfl
@[simp] theorem block_drive_phase (p : Pins) (b : Block) : (b.drive p).phase = b.phase := rfl
@[simp] theorem block_drive_op (p : Pins) (b : Block) : (b.drive p).op = b.op := rfl
@[simp] theorem block_drive_addr (p : Pins) (b : Block) : (b.drive p).addr = b.addr := rfl
@[simp] theorem block_drive_arg0 (p : Pins) (b : Block) : (b.drive p).arg0 = b.arg0 := rfl
@[simp] theorem block_drive_arg1 (p : Pins) (b : Block) : (b.drive p).arg1 = b.arg1 := rfl
@[simp] theorem block_drive_k (p : Pins) (b : Block) : (b.drive p).k = b.k := rfl
@[simp] theorem block_drive_cap (p : Pins) (b : Block) : (b.drive p).cap = b.cap := rfl
@[simp] theorem block_drive_result (p : Pins) (b : Block) : (b.drive p).result = b.result := rfl
@[simp] theorem block_drive_ready (p : Pins) (b : Block) : (b.drive p).ready = b.ready := rfl
@[simp] theorem block_drive_rvalid (p : Pins) (b : Block) : (b.drive p).rvalid = b.rvalid := rfl
@[simp] theorem block_drive_errBusy (p : Pins) (b : Block) : (b.drive p).errBusy = b.errBusy := rfl
@[simp] theorem block_drive_errNotReady (p : Pins) (b : Block) : (b.drive p).errNotReady = b.errNotReady := rfl
@[simp] theorem block_drive_errBadOp (p : Pins) (b : Block) : (b.drive p).errBadOp = b.errBadOp := rfl
@[simp] theorem block_drive_xportEn (p : Pins) (b : Block) : (b.drive p).xportEn = b.xportEn := rfl
@[simp] theorem block_drive_xferDone (p : Pins) (b : Block) : (b.drive p).xferDone = b.xferDone := rfl
@[simp] theorem block_drive_initMode (p : Pins) (b : Block) : (b.drive p).initMode = b.initMode := rfl
@[simp] theorem block_drive_settle (p : Pins) (b : Block) : (b.drive p).settle = b.settle := rfl

end Sys2Proof.Machine
end

