-- ==== Sys2Proof/Laws/Ops.lean ====
section
/-! SUPPORT. What each shared operation can do, said once: the host's writes, the frame table, STATUS, one exchange, and the
trace automaton. -/

namespace Sys2Proof.Machine

/-! ## The host's writes -/

theorem cmdWrite_busy {op a v d : Byte} {s : State} (h : s.block.phase ≠ .idle) :
    cmdWrite op a v d s = raise .busy s := by simp [cmdWrite, h]

theorem cmdWrite_notReady {op a v d : Byte} {s : State} (h : s.block.phase = .idle) (r : s.block.ready = false) :
    cmdWrite op a v d s = raise .notReady s := by simp [cmdWrite, h, r]

theorem cmdWrite_badOp {op a v d : Byte} {s : State} (h : s.block.phase = .idle) (r : s.block.ready = true)
    (u : supported op = false) : cmdWrite op a v d s = raise .badOp s := by simp [cmdWrite, h, r, u]

theorem cmdWrite_accept {op a v d : Byte} {s : State} (h : s.block.phase = .idle) (r : s.block.ready = true)
    (u : supported op = true) : cmdWrite op a v d s = onBlock (Block.accept op a v d) s := by
  simp [cmdWrite, h, r, u]

/-- A CMD write is rejected for exactly one cause, or accepted (R72, R104). -/
theorem cmdWrite_cases (op a v d : Byte) (s : State) :
    (s.block.phase ≠ .idle ∧ cmdWrite op a v d s = raise .busy s) ∨
    (s.block.phase = .idle ∧ s.block.ready = false ∧ cmdWrite op a v d s = raise .notReady s) ∨
    (s.block.phase = .idle ∧ s.block.ready = true ∧ supported op = false ∧ cmdWrite op a v d s = raise .badOp s) ∨
    (s.block.phase = .idle ∧ s.block.ready = true ∧ supported op = true ∧
      cmdWrite op a v d s = onBlock (Block.accept op a v d) s) := by
  by_cases h : s.block.phase = .idle
  · cases r : s.block.ready
    · exact .inr (.inl ⟨h, rfl, cmdWrite_notReady h r⟩)
    · cases u : supported op
      · exact .inr (.inr (.inl ⟨h, rfl, rfl, cmdWrite_badOp h r u⟩))
      · exact .inr (.inr (.inr ⟨h, rfl, rfl, cmdWrite_accept h r u⟩))
  · exact .inl ⟨h, cmdWrite_busy h⟩

theorem initRequest_busy {s : State} (h : s.block.phase ≠ .idle) : initRequest s = raise .busy s := by
  simp [initRequest, h]

theorem initRequest_accept {s : State} (h : s.block.phase = .idle) : initRequest s = onBlock Block.acceptInit s := by
  simp [initRequest, h]

/-- An INIT request is rejected while busy, or accepted (R93). -/
theorem initRequest_cases (s : State) :
    (s.block.phase ≠ .idle ∧ initRequest s = raise .busy s) ∨
    (s.block.phase = .idle ∧ initRequest s = onBlock Block.acceptInit s) := by
  by_cases h : s.block.phase = .idle
  · exact .inr ⟨h, initRequest_accept h⟩
  · exact .inl ⟨h, initRequest_busy h⟩

/-- Everything a host operation can do: every one of them answers a next state. -/
theorem exec_cases (i : Instr) (s : State) :
    (∃ op a v d, cmdFields i = some (op, a, v, d) ∧ exec i s = .next (cmdWrite op a v d s)) ∨
    (∃ clr g, i = .init clr g ∧ exec i s = .next (initRequest (if clr then clearErrors s else s))) ∨
    (∃ g, i = .clrErr g ∧ exec i s = .next (clearErrors s)) ∨
    (∃ w, (encode i).busAccess.dir = .read ∧ exec i s = .next (answer w s)) ∨
    ((encode i).busAccess.dir = .write ∧ exec i s = .next s) := by
  cases i with
  | reset a v d => exact .inl ⟨_, a, v, d, rfl, rfl⟩
  | read a v d => exact .inl ⟨_, a, v, d, rfl, rfl⟩
  | write a v d => exact .inl ⟨_, a, v, d, rfl, rfl⟩
  | bitModify a v d => exact .inl ⟨_, a, v, d, rfl, rfl⟩
  | readStatus a v d => exact .inl ⟨_, a, v, d, rfl, rfl⟩
  | rxStatus a v d => exact .inl ⟨_, a, v, d, rfl, rfl⟩
  | cmdRejectReadRx a v d => exact .inl ⟨_, a, v, d, rfl, rfl⟩
  | cmdRejectWriteRx a v d => exact .inl ⟨_, a, v, d, rfl, rfl⟩
  | cmdRejectRequestToSend a v d => exact .inl ⟨_, a, v, d, rfl, rfl⟩
  | cmdRejectOther op a v d => exact .inl ⟨op, a, v, d, rfl, rfl⟩
  | init clr g => exact .inr (.inl ⟨clr, g, rfl, rfl⟩)
  | clrErr g => exact .inr (.inr (.inl ⟨g, rfl, rfl⟩))
  | ctrlNoop g => exact .inr (.inr (.inr (.inr ⟨rfl, rfl⟩)))
  | rdStatus => exact .inr (.inr (.inr (.inl ⟨_, rfl, rfl⟩)))
  | hasPendingEvent => exact .inr (.inr (.inr (.inl ⟨_, rfl, rfl⟩)))
  | rdResult => exact .inr (.inr (.inr (.inl ⟨_, rfl, rfl⟩)))
  | rdCmd => exact .inr (.inr (.inr (.inl ⟨_, rfl, rfl⟩)))
  | rdCtrl => exact .inr (.inr (.inr (.inl ⟨_, rfl, rfl⟩)))
  | wrStatus w => exact .inr (.inr (.inr (.inr ⟨rfl, rfl⟩)))
  | wrResult w => exact .inr (.inr (.inr (.inr ⟨rfl, rfl⟩)))

/-- A CMD row is CmdWrite on its fields (R72). -/
theorem exec_of_cmdFields {i : Instr} {op a v d : Byte} (h : cmdFields i = some (op, a, v, d)) (s : State) :
    exec i s = .next (cmdWrite op a v d s) := by
  cases i <;> simp [cmdFields] at h <;> obtain ⟨rfl, rfl, rfl, rfl⟩ := h <;> rfl

/-- A CMD row is a write (R46). -/
theorem dir_of_cmdFields {i : Instr} {f : Byte × Byte × Byte × Byte} (h : cmdFields i = some f) :
    (encode i).busAccess.dir = .write := by
  cases i <;> simp [cmdFields] at h <;> rfl

/-- Whatever its row, a CMD word is CmdWrite on its fields (R47, R72). -/
theorem exec_decodeCmd (w : Word) (s : State) :
    exec (decodeCmd w) s = .next (cmdWrite (cmdOp w) (cmdAddr w) (cmdArg0 w) (cmdArg1 w) s) := by
  unfold decodeCmd
  split <;> rename_i h <;> first
    | (rw [← byte_of_opcodeOf _ _ h]; rfl)
    | rfl

/-! ## The frame table -/

/-- No frame is longer than four bytes (R54). -/
theorem frame_length_le (op a v d : Byte) : (frame op a v d).length ≤ 4 := by
  unfold frame
  split_ifs <;> simp

/-- A supported opcode has a frame of at least one byte (R53, R54). -/
theorem frame_length_pos {op : Byte} (a v d : Byte) (h : supported op = true) : 0 < (frame op a v d).length := by
  rw [supported_iff] at h
  rcases h with rfl | rfl | rfl | rfl | rfl | rfl <;> simp [frame]

/-- Byte 0 of a frame is the opcode (R47). -/
theorem frame_head {op : Byte} (a v d : Byte) (h : supported op = true) : (frame op a v d)[0]? = some op := by
  rw [supported_iff] at h
  rcases h with rfl | rfl | rfl | rfl | rfl | rfl <;> simp [frame]

/-- The capture index is inside the frame (R53). -/
theorem capIdx_lt {op : Byte} {c : Nat} (a v d : Byte) (h : capIdx op = some c) : c < (frame op a v d).length := by
  unfold capIdx at h
  split_ifs at h with h1 h2
  · subst h1; simp_all [frame]; omega
  · rcases h2 with rfl | rfl <;> simp_all [frame] <;> omega

/-! ## STATUS -/

/-- PEND is 1 exactly when the pin is driven low: the pull-up is always on (R11, R86). -/
theorem pend_eq (s : State) : pend s = decide (s.intLine = .low) := by
  unfold pend
  cases s.intLine <;> cases s.block.pullUp <;> rfl

/-- STATUS bit by bit (R15). -/
theorem statusWord_bit (s : State) (i : Nat) : (statusWord s).getLsbD i =
    if i = 0 then busy s.block else if i = 1 then s.block.ready else if i = 2 then pend s else if i = 3 then s.block.rvalid
    else if i = 4 then csActive s.block else if i = 8 then s.block.errBusy else if i = 9 then s.block.errNotReady
    else if i = 10 then s.block.errBadOp else false := by
  unfold statusWord
  generalize busy s.block = b0, s.block.ready = b1, pend s = b2, s.block.rvalid = b3, csActive s.block = b4,
    s.block.errBusy = b5, s.block.errNotReady = b6, s.block.errBadOp = b7
  iterate 9 rw [BitVec.getLsbD_append]
  rcases i with _ | _ | _ | _ | _ | _ | _ | _ | _ | _ | _ | i <;> simp

/-! ## One exchange -/

/-- The byte the engine assembles is the one the environment supplied, bit for bit (R34, R61). -/
@[simp] theorem exchange_rx (tx miso : Byte) : (exchange tx miso).rx = miso := by
  apply BitVec.eq_of_getLsbD_eq
  intro i hi
  have : i = 0 ∨ i = 1 ∨ i = 2 ∨ i = 3 ∨ i = 4 ∨ i = 5 ∨ i = 6 ∨ i = 7 := by omega
  rcases this with rfl | rfl | rfl | rfl | rfl | rfl | rfl | rfl <;> simp [exchange, shiftBits, shiftBit]

/-- The lines are left low (R61, R71). -/
@[simp] theorem exchange_lastPins (tx miso : Byte) : lastPins (exchange tx miso).wave = ⟨false, false⟩ := by
  simp [exchange, lastPins]

/-- The completion step, with the byte of the frame in hand (R67). -/
theorem completeExchange_some {s : State} {tx : Byte} (miso : Byte) (h : s.block.frame[s.block.k.toNat]? = some tx) :
    completeExchange miso s =
      .next (emit (.xchg tx miso) (onBlock (fun b => (b.complete miso).drive ⟨false, false⟩) s)) := by
  simp [completeExchange, h]

/-- Everything the transport's step can do. -/
theorem transportStep_cases {miso : Byte} {s t : State} (h : transportStep miso s = .next t) :
    (s.block.phase ≠ .xfer ∧ t = s) ∨
    (s.block.phase = .xfer ∧ ∃ tx, s.block.frame[s.block.k.toNat]? = some tx ∧
      t = emit (.xchg tx miso) (onBlock (fun b => (b.complete miso).drive ⟨false, false⟩) s)) := by
  unfold transportStep at h
  split at h
  · rename_i p
    right
    cases f : s.block.frame[s.block.k.toNat]? with
    | none => simp [completeExchange, f] at h
    | some tx =>
      rw [completeExchange_some miso f] at h
      exact ⟨p, tx, rfl, by simpa using h.symm⟩
  · rename_i p
    exact .inl ⟨p, by simpa using h.symm⟩

/-! ## The trace automaton -/

/-- Reading one more event (R30). -/
theorem scanTrace_append (tr : List Event) (e : Event) : scanTrace (tr ++ [e]) = (scanTrace tr).bind (fun x => scanEvent x e) := by
  simp [scanTrace, List.foldl_append]

@[simp] theorem scanEvent_reject (st : Option (List (Byte × Byte))) (kind : ErrKind) :
    scanEvent st (.reject kind) = some st := by cases st <;> rfl

/-- A rejection leaves the framing alone (R100: no bus event). -/
@[simp] theorem scanTrace_reject (tr : List Event) (kind : ErrKind) : scanTrace (tr ++ [.reject kind]) = scanTrace tr := by
  rw [scanTrace_append]
  cases scanTrace tr <;> simp

@[simp] theorem busEvents_append (a b : List Event) : busEvents (a ++ b) = busEvents a ++ busEvents b := by
  simp [busEvents]

@[simp] theorem busEvents_reject (kind : ErrKind) : busEvents [.reject kind] = [] := rfl

end Sys2Proof.Machine
end

