-- ==== Sys2Proof/Laws/PerInstr.lean ====
section
/-! SUPPORT. Family AlignedAccess: whatever an operation's operands, the bus access it makes is 32 bits wide at the offset of one
of the four window registers, so that it is inside the interface's precondition (R33, R49). -/

namespace Sys2Proof.Laws.AlignedAccess

/-- The access of `i` is 32 bits wide, at a window register. -/
def Statement (i : Instr) : Prop :=
  (encode i).busAccess.width = .w32 ∧ (windowReg (encode i).busAccess.offset).isSome = true

theorem reset (a v d : Byte) : Statement (.reset a v d) := ⟨rfl, rfl⟩
theorem read (a v d : Byte) : Statement (.read a v d) := ⟨rfl, rfl⟩
theorem write (a v d : Byte) : Statement (.write a v d) := ⟨rfl, rfl⟩
theorem bitModify (a v d : Byte) : Statement (.bitModify a v d) := ⟨rfl, rfl⟩
theorem readStatus (a v d : Byte) : Statement (.readStatus a v d) := ⟨rfl, rfl⟩
theorem rxStatus (a v d : Byte) : Statement (.rxStatus a v d) := ⟨rfl, rfl⟩
theorem cmdRejectReadRx (a v d : Byte) : Statement (.cmdRejectReadRx a v d) := ⟨rfl, rfl⟩
theorem cmdRejectWriteRx (a v d : Byte) : Statement (.cmdRejectWriteRx a v d) := ⟨rfl, rfl⟩
theorem cmdRejectRequestToSend (a v d : Byte) : Statement (.cmdRejectRequestToSend a v d) := ⟨rfl, rfl⟩
theorem cmdRejectOther (op a v d : Byte) : Statement (.cmdRejectOther op a v d) := ⟨rfl, rfl⟩
theorem init (clr : Bool) (ign : BitVec 30) : Statement (.init clr ign) := ⟨rfl, rfl⟩
theorem clrErr (ign : BitVec 30) : Statement (.clrErr ign) := ⟨rfl, rfl⟩
theorem ctrlNoop (ign : BitVec 30) : Statement (.ctrlNoop ign) := ⟨rfl, rfl⟩
theorem rdStatus : Statement .rdStatus := ⟨rfl, rfl⟩
theorem hasPendingEvent : Statement .hasPendingEvent := ⟨rfl, rfl⟩
theorem rdResult : Statement .rdResult := ⟨rfl, rfl⟩
theorem rdCmd : Statement .rdCmd := ⟨rfl, rfl⟩
theorem rdCtrl : Statement .rdCtrl := ⟨rfl, rfl⟩
theorem wrStatus (w : Word) : Statement (.wrStatus w) := ⟨rfl, rfl⟩
theorem wrResult (w : Word) : Statement (.wrResult w) := ⟨rfl, rfl⟩

end Sys2Proof.Laws.AlignedAccess
end

