-- ==== Sys2Proof/Laws/Step.lean ====
section
/-! SUPPORT. What one step can do, said once. -/

namespace Sys2Proof.Machine

@[simp] theorem holdInReset_high {s : State} (t : State) (h : s.rstN = true) : holdInReset s t = t := by
  simp [holdInReset, h]

theorem holdInReset_low {s : State} (t : State) (h : s.rstN = false) :
    holdInReset s t = { t with block := Block.reset, trace := s.trace } := by simp [holdInReset, h]

/-- While the reset pin is high, `held` changes nothing. -/
theorem held_high {s : State} (o : Host.Outcome State Fault Refusal) (h : s.rstN = true) : held s o = o := by
  cases o <;> simp [held, h]

/-- A step that is on the agenda. -/
theorem step_cons {s : State} {t : Turn} {rest : List Turn} (h : s.agenda = t :: rest) :
    step s = runTurn t { s with agenda := rest } := by
  rw [step, nextTurn_cons s t rest h, takeTurn_cons s t rest h]

/-- The operations of the interface always complete: none faults, none is refused (R49). -/
theorem exec_next (i : Instr) (s : State) : ∃ t, exec i s = .next t := by
  rcases exec_cases i s with ⟨op, a, v, d, -, h⟩ | ⟨clr, g, -, h⟩ | ⟨g, -, h⟩ | ⟨w, -, h⟩ | ⟨-, h⟩ <;> exact ⟨_, h⟩

/-- What a host request can do. -/
theorem hostStep_cases {r : HostRequest} {s t : State} (h : hostStep r s = .next t) :
    ∃ i u, decode r = .ok i ∧ exec i s = .next u ∧ t = holdInReset s u := by
  unfold hostStep at h
  split at h
  · rename_i i hi
    obtain ⟨u, hu⟩ := exec_next i s
    rw [hu] at h
    exact ⟨i, u, hi, hu, by simpa [held] using h.symm⟩
  · simp at h

/-- Everything one step can do, by the agent that takes it. -/
theorem step_cases {s t : State} (h : step s = .next t) :
    (∃ i line u, turnInstr (nextTurn s) = some i ∧ agentOf (nextTurn s) = .host ∧
      exec i (sampleInt line (takeTurn s)) = .next u ∧ t = holdInReset (sampleInt line (takeTurn s)) u) ∨
    (∃ m line, nextTurn s = .memory m line ∧ portAccess m = none ∧ t = sampleInt line (takeTurn s)) ∨
    (nextTurn s = .sequencer ∧ t = holdInReset (takeTurn s) (sequencerStep (takeTurn s))) ∨
    (∃ miso u, nextTurn s = .transport miso ∧ transportStep miso (takeTurn s) = .next u ∧
      t = holdInReset (takeTurn s) u) ∨
    (nextTurn s = .settleTimer ∧ t = holdInReset (takeTurn s) (settleStep (takeTurn s))) ∨
    (∃ level, nextTurn s = .resetPin level ∧ t = driveReset level (takeTurn s)) := by
  unfold step at h
  cases e : nextTurn s with
  | host r line =>
    rw [e] at h
    obtain ⟨i, u, hi, hu, ht⟩ := hostStep_cases h
    exact .inl ⟨i, line, u, by simp [turnInstr, hi, Except.toOption], rfl, hu, ht⟩
  | memory m line =>
    rw [e] at h
    simp only [runTurn, memoryStep] at h
    split at h
    · rename_i a ha
      obtain ⟨i, u, hi, hu, ht⟩ := hostStep_cases h
      have hi' : decodeAccess a = .ok i := hi
      exact .inl ⟨i, line, u, by simp [turnInstr, ha, hi', Except.toOption], rfl, hu, ht⟩
    · rename_i ha
      exact .inr (.inl ⟨m, line, rfl, ha, by simpa using h.symm⟩)
  | sequencer =>
    rw [e] at h
    exact .inr (.inr (.inl ⟨rfl, by simpa [runTurn, held] using h.symm⟩))
  | transport miso =>
    rw [e] at h
    simp only [runTurn] at h
    cases o : transportStep miso (takeTurn s) with
    | next u => exact .inr (.inr (.inr (.inl ⟨miso, u, rfl, o, by simpa [o, held] using h.symm⟩)))
    | fault r => simp [o, held] at h
    | refused r => simp [o, held] at h
  | settleTimer =>
    rw [e] at h
    exact .inr (.inr (.inr (.inr (.inl ⟨rfl, by simpa [runTurn, held] using h.symm⟩))))
  | resetPin level =>
    rw [e] at h
    exact .inr (.inr (.inr (.inr (.inr ⟨level, rfl, by simpa [runTurn] using h.symm⟩))))

/-- Everything the sequencer's step can do. -/
theorem sequencerStep_cases (s : State) :
    (s.block.phase = .initLines ∧ sequencerStep s = onBlock Block.initLines s) ∨
    (s.block.phase = .initXport ∧ sequencerStep s = onBlock Block.initXport s) ∨
    (s.block.phase = .assert ∧ sequencerStep s = emit .csLow (onBlock Block.assert s)) ∨
    (s.block.phase = .deassert ∧ sequencerStep s = emit .csHigh (onBlock Block.deassert s)) ∨
    ((s.block.phase = .idle ∨ s.block.phase = .xfer ∨ s.block.phase = .settle) ∧ sequencerStep s = s) := by
  cases p : s.block.phase <;> simp [sequencerStep, p]

/-- Everything the settle timer's step can do. -/
theorem settleStep_cases (s : State) :
    (s.block.phase = .settle ∧ settleStep s = onBlock Block.endSettle s) ∨ (s.block.phase ≠ .settle ∧ settleStep s = s) := by
  by_cases p : s.block.phase = .settle <;> simp [settleStep, p]

/-! ## Steps on the agenda, and runs -/

theorem runFor_succ {s t : State} (n : Nat) (h : step s = .next t) : runFor (n + 1) s = runFor n t := by
  simp [runFor, h]

/-- `runFor` is the host's run. -/
theorem runFor_eq_run (n : Nat) (s : State) : runFor n s = Host.Core.run core n s := by
  induction n generalizing s with
  | zero => rfl
  | succ n ih =>
    have hs : core.step s = step s := rfl
    simp only [runFor, Host.Core.run, hs]
    cases step s with
    | next t => exact ih t
    | fault r => rfl
    | refused r => rfl

/-- A host turn on the agenda whose request decodes. -/
theorem step_host {s : State} {r : HostRequest} {line : IntLine} {rest : List Turn} {i : Instr} (hr : s.rstN = true)
    (ha : s.agenda = .host r line :: rest) (hd : decode r = .ok i) :
    step s = exec i { s with agenda := rest, intLine := line } := by
  rw [step_cons ha]
  simp only [runTurn, hostStep, hd]
  exact held_high _ hr

/-- A sequencer turn on the agenda. -/
theorem step_sequencer {s : State} {rest : List Turn} (hr : s.rstN = true) (ha : s.agenda = .sequencer :: rest) :
    step s = .next (sequencerStep { s with agenda := rest }) := by
  rw [step_cons ha]
  simp only [runTurn]
  rw [held_high _ (by exact hr)]

/-- A transport turn on the agenda, in XFER with a byte to send. -/
theorem step_transport {s : State} {rx tx : Byte} {rest : List Turn} (hr : s.rstN = true)
    (ha : s.agenda = .transport rx :: rest) (hp : s.block.phase = .xfer)
    (hf : s.block.frame[s.block.k.toNat]? = some tx) :
    step s = .next { s with
      block := (s.block.complete rx).drive ⟨false, false⟩, trace := s.trace ++ [.xchg tx rx], agenda := rest } := by
  rw [step_cons ha]
  simp only [runTurn]
  rw [held_high _ (by exact hr), transportStep, if_pos (by exact hp), completeExchange_some rx (by exact hf)]
  rfl

/-- A settle-timer turn on the agenda. -/
theorem step_settleTimer {s : State} {rest : List Turn} (hr : s.rstN = true) (ha : s.agenda = .settleTimer :: rest) :
    step s = .next (settleStep { s with agenda := rest }) := by
  rw [step_cons ha]
  simp only [runTurn]
  rw [held_high _ (by exact hr)]

/-- Everything one step can do to the block and the trace. -/
inductive Moves (s t : State) : Prop where
  | quiet (b : t.block = s.block) (e : t.trace = s.trace)
  | rejected (i : Instr) (kind : ErrKind) (clr : Bool) (hi : turnInstr (nextTurn s) = some i)
      (ha : agentOf (nextTurn s) = .host) (hc : clr = true → clearsErrors i = true)
      (b : t.block = (if clr then s.block.clearErrs else s.block).setErr kind) (e : t.trace = s.trace ++ [.reject kind])
  | accepted (i : Instr) (op addr arg0 arg1 : Byte) (hi : turnInstr (nextTurn s) = some i)
      (hf : cmdFields i = some (op, addr, arg0, arg1)) (hp : s.block.phase = .idle) (hr : s.block.ready = true)
      (hs : supported op = true) (b : t.block = s.block.accept op addr arg0 arg1) (e : t.trace = s.trace)
  | initAccepted (clr : Bool) (g : BitVec 30) (hi : turnInstr (nextTurn s) = some (.init clr g))
      (hp : s.block.phase = .idle) (b : t.block = (if clr then s.block.clearErrs else s.block).acceptInit)
      (e : t.trace = s.trace)
  | errorsCleared (g : BitVec 30) (hi : turnInstr (nextTurn s) = some (.clrErr g)) (b : t.block = s.block.clearErrs)
      (e : t.trace = s.trace)
  | linesSet (hn : nextTurn s = .sequencer) (hp : s.block.phase = .initLines) (b : t.block = s.block.initLines)
      (e : t.trace = s.trace)
  | transportSet (hn : nextTurn s = .sequencer) (hp : s.block.phase = .initXport) (b : t.block = s.block.initXport)
      (e : t.trace = s.trace)
  | asserted (hn : nextTurn s = .sequencer) (hp : s.block.phase = .assert) (b : t.block = s.block.assert)
      (e : t.trace = s.trace ++ [.csLow])
  | deasserted (hn : nextTurn s = .sequencer) (hp : s.block.phase = .deassert) (b : t.block = s.block.deassert)
      (e : t.trace = s.trace ++ [.csHigh])
  | completed (rx tx : Byte) (hn : nextTurn s = .transport rx) (hp : s.block.phase = .xfer)
      (hf : s.block.frame[s.block.k.toNat]? = some tx) (b : t.block = (s.block.complete rx).drive ⟨false, false⟩)
      (e : t.trace = s.trace ++ [.xchg tx rx])
  | settled (hn : nextTurn s = .settleTimer) (hp : s.block.phase = .settle) (b : t.block = s.block.endSettle)
      (e : t.trace = s.trace)
  | wasReset (hn : nextTurn s = .resetPin false) (b : t.block = Block.reset) (e : t.trace = resetTrace s)

/-- While the reset pin is low, and the block at its reset values, a step is quiet or another reset. -/
theorem step_moves_low {s t : State} (hr : s.rstN = false) (hb : s.block = Block.reset) (h : step s = .next t) :
    Moves s t := by
  rcases step_cases h with ⟨i, line, u, -, -, -, e⟩ | ⟨m, line, -, -, e⟩ | ⟨-, e⟩ | ⟨miso, u, -, -, e⟩ | ⟨-, e⟩ | ⟨l, hl, e⟩
  · rw [holdInReset_low _ (by simpa using hr)] at e
    exact .quiet (by simp [e, hb]) (by simp [e])
  · exact .quiet (by simp [e]) (by simp [e])
  · rw [holdInReset_low _ (by simpa using hr)] at e
    exact .quiet (by simp [e, hb]) (by simp [e])
  · rw [holdInReset_low _ (by simpa using hr)] at e
    exact .quiet (by simp [e, hb]) (by simp [e])
  · rw [holdInReset_low _ (by simpa using hr)] at e
    exact .quiet (by simp [e, hb]) (by simp [e])
  · cases l
    · exact .wasReset hl (by simp [e, driveReset]) (by simp [e, driveReset, resetTrace])
    · exact .quiet (by simp [e, driveReset]) (by simp [e, driveReset])

/-- What the host's operation does, as a move. -/
theorem exec_moves {s u t : State} {i : Instr} (hi : turnInstr (nextTurn s) = some i) (ha : agentOf (nextTurn s) = .host)
    (hb : u.block = s.block) (he : u.trace = s.trace) (h : exec i u = .next t) : Moves s t := by
  rcases exec_cases i u with ⟨op, a, v, d, hf, x⟩ | ⟨clr, g, rfl, x⟩ | ⟨g, rfl, x⟩ | ⟨w, -, x⟩ | ⟨-, x⟩ <;>
    (rw [x] at h; obtain rfl := Host.Outcome.next.inj h)
  · rcases cmdWrite_cases op a v d u with ⟨-, x⟩ | ⟨-, -, x⟩ | ⟨-, -, -, x⟩ | ⟨hp, hr, hs, x⟩ <;> rw [x]
    · exact .rejected i .busy false hi ha (by simp) (by simp [hb]) (by simp [he])
    · exact .rejected i .notReady false hi ha (by simp) (by simp [hb]) (by simp [he])
    · exact .rejected i .badOp false hi ha (by simp) (by simp [hb]) (by simp [he])
    · exact .accepted i op a v d hi hf (hb ▸ hp) (hb ▸ hr) hs (by simp [hb]) (by simp [he])
  · rcases initRequest_cases (if clr then clearErrors u else u) with ⟨-, x⟩ | ⟨hp, x⟩ <;> rw [x]
    · exact .rejected _ .busy clr hi ha (by simp [clearsErrors]) (by cases clr <;> simp [hb]) (by cases clr <;> simp [he])
    · exact .initAccepted clr g hi (by cases clr <;> simp_all) (by cases clr <;> simp [hb]) (by cases clr <;> simp [he])
  · exact .errorsCleared g hi (by simp [hb]) (by simp [he])
  · exact .quiet (by simp [hb]) (by simp [he])
  · exact .quiet hb he

/-- Every step moves the block and the trace in one of these ways, and in no other. The premise says that a low reset pin finds the
block at its reset values, which is part of the invariant. -/
theorem step_moves {s t : State} (hr : s.rstN = false → s.block = Block.reset) (h : step s = .next t) : Moves s t := by
  cases e : s.rstN with
  | false => exact step_moves_low e (hr e) h
  | true =>
    have e0 : (takeTurn s).rstN = true := by simpa using e
    rcases step_cases h with ⟨i, line, u, hi, ha, hx, rfl⟩ | ⟨m, line, -, -, rfl⟩ | ⟨hn, rfl⟩ | ⟨miso, u, hn, hx, rfl⟩ |
      ⟨hn, rfl⟩ | ⟨l, hn, rfl⟩
    · rw [holdInReset_high _ (by simpa using e)]
      exact exec_moves hi ha (by simp) (by simp) hx
    · exact .quiet (by simp) (by simp)
    · rw [holdInReset_high _ e0]
      rcases sequencerStep_cases (takeTurn s) with ⟨p, x⟩ | ⟨p, x⟩ | ⟨p, x⟩ | ⟨p, x⟩ | ⟨p, x⟩ <;> rw [x] <;> simp at p
      · exact .linesSet hn p (by simp) (by simp)
      · exact .transportSet hn p (by simp) (by simp)
      · exact .asserted hn p (by simp) (by simp)
      · exact .deasserted hn p (by simp) (by simp)
      · exact .quiet (by simp) (by simp)
    · rw [holdInReset_high _ e0]
      rcases transportStep_cases hx with ⟨-, rfl⟩ | ⟨p, tx, hf, rfl⟩
      · exact .quiet (by simp) (by simp)
      · exact .completed miso tx hn (by simpa using p) (by simpa using hf) (by simp) (by simp)
    · rw [holdInReset_high _ e0]
      rcases settleStep_cases (takeTurn s) with ⟨p, x⟩ | ⟨-, x⟩ <;> rw [x]
      · exact .settled hn (by simpa using p) (by simp) (by simp)
      · exact .quiet (by simp) (by simp)
    · cases l
      · exact .wasReset hn (by simp [driveReset]) (by simp [driveReset, resetTrace])
      · exact .quiet (by simp [driveReset]) (by simp [driveReset])

end Sys2Proof.Machine
end

