-- ==== Sys2Proof/Tests/Slice0.lean ====
section
/-! SUPPORT. The model's own tests. Expected values are from the spec: the encodings of 30_encoding.md and the vectors of
95_test_vectors.md, whose numbers stand in the comments. The witnesses show that the hypotheses of each statement can be met. -/

namespace Sys2Proof.Tests
open Sys2Proof.Machine

/-! ## Helpers -/

/-- 'Ready idle' of 95_test_vectors.md. -/
def readyIdle : State :=
  { State.reset with block := { Block.reset with ready := true, xportEn := true }, intLine := .high }

/-- Ready, in the middle of a READ of 0x2A: exchange `k` in progress. -/
def reading (k : BitVec 3) : State :=
  { readyIdle with block := { readyIdle.block with op := 0x03#8, addr := 0x2A#8, phase := .xfer, csN := false, k := k } }

/-- Ready, in SETTLE after a RESET. -/
def settling : State :=
  { readyIdle with block := { readyIdle.block with op := 0xC0#8, phase := .settle, settle := .running, k := 1#3 } }

/-- In a phase. -/
def inPhase (p : Phase) (s : State) : State := { s with block := { s.block with phase := p } }

/-- With turns to come. -/
def withTurns (ts : List Turn) (s : State) : State := { s with agenda := ts }

/-- The state of a next outcome. -/
def stateOf (o : Host.Outcome State Fault Refusal) : State :=
  match o with
  | .next t => t
  | .fault _ => State.reset
  | .refused _ => State.reset

/-- The state after an operation. -/
def execd (i : Instr) (s : State) : State := stateOf (exec i s)

/-- The state after a step. -/
def stepped (s : State) : State := stateOf (step s)

/-! ## Well-formedness -/

theorem test_wf_refuses_named_opcode :
    (Instr.cmdRejectOther 0xC0#8 0x00#8 0x00#8 0x00#8).wellFormed = false ∧
    (Instr.cmdRejectOther 0x80#8 0x00#8 0x00#8 0x00#8).wellFormed = false ∧
    (Instr.cmdRejectOther 0x04#8 0x00#8 0x00#8 0x00#8).wellFormed = true := by decide

/-! ## Decoding, by words written out from R47, R48, R50 and R58 -/

theorem test_decode_reset : decode (hostWrite 0x0#4 0b00000000000000000000000011000000#32) = .ok (.reset 0x00#8 0x00#8 0x00#8) := by decide
theorem test_decode_read : decode (hostWrite 0x0#4 0b00000000000000000010101000000011#32) = .ok (.read 0x2A#8 0x00#8 0x00#8) := by decide
theorem test_decode_write : decode (hostWrite 0x0#4 0b00000000100000000000111100000010#32) = .ok (.write 0x0F#8 0x80#8 0x00#8) := by decide
theorem test_decode_bitModify : decode (hostWrite 0x0#4 0b00100001001101010000111100000101#32) = .ok (.bitModify 0x0F#8 0x35#8 0x21#8) := by decide
theorem test_decode_readStatus : decode (hostWrite 0x0#4 0b00000000000000000000000010100000#32) = .ok (.readStatus 0x00#8 0x00#8 0x00#8) := by decide
theorem test_decode_rxStatus : decode (hostWrite 0x0#4 0b11111111111111111111111110110000#32) = .ok (.rxStatus 0xFF#8 0xFF#8 0xFF#8) := by decide
theorem test_decode_rejectReadRx : decode (hostWrite 0x0#4 0x00000090#32) = .ok (.cmdRejectReadRx 0x00#8 0x00#8 0x00#8) := by decide
theorem test_decode_rejectWriteRx : decode (hostWrite 0x0#4 0x00000040#32) = .ok (.cmdRejectWriteRx 0x00#8 0x00#8 0x00#8) := by decide
theorem test_decode_rejectRts : decode (hostWrite 0x0#4 0x00000080#32) = .ok (.cmdRejectRequestToSend 0x00#8 0x00#8 0x00#8) := by decide
theorem test_decode_rejectOther : decode (hostWrite 0x0#4 0x12345604#32) = .ok (.cmdRejectOther 0x04#8 0x56#8 0x34#8 0x12#8) := by decide
theorem test_decode_init : decode (hostWrite 0xC#4 0x00000001#32) = .ok (.init false 0#30) := by decide
theorem test_decode_init_with_clear : decode (hostWrite 0xC#4 0x00000003#32) = .ok (.init true 0#30) := by decide
theorem test_decode_clrErr : decode (hostWrite 0xC#4 0x00000002#32) = .ok (.clrErr 0#30) := by decide
theorem test_decode_ctrlNoop : decode (hostWrite 0xC#4 0xFFFFFFFC#32) = .ok (.ctrlNoop 0x3FFFFFFF#30) := by decide
theorem test_decode_reads : decode (hostRead 0x0#4) = .ok .rdCmd ∧ decode (hostRead 0x4#4) = .ok .rdStatus ∧
    decode (hostRead 0x8#4) = .ok .rdResult ∧ decode (hostRead 0xC#4) = .ok .rdCtrl ∧ decode .pending = .ok .hasPendingEvent := by decide
theorem test_decode_ignored_writes : decode (hostWrite 0x4#4 7#32) = .ok (.wrStatus 7#32) ∧
    decode (hostWrite 0x8#4 0xFFFFFFFF#32) = .ok (.wrResult 0xFFFFFFFF#32) := by decide
theorem test_decode_refuses : decode (.access ⟨.write, .w16, 0x0#4, 0#32⟩) = .error (.narrow .w16) ∧
    decode (.access ⟨.read, .w32, 0x6#4, 0#32⟩) = .error (.misaligned 0x6#4) := by decide
theorem test_table_words : decodeTableWord 8 0xC0 = some (.reset 0#8 0#8 0#8) ∧ decodeTableWord 8 1 = some (.init false 0#30) ∧
    decodeTableWord 8 4 = some .rdStatus ∧ decodeTableWord 8 12 = some .rdCtrl ∧
    decodeTableWord 40 0x0C00000002 = some (.clrErr 0#30) ∧ decodeTableWord 40 0x2000000000 = some .hasPendingEvent := by decide

/-! ## One operation each (numbers of 95_test_vectors.md) -/

-- F1 to F12, the STATUS after acceptance; E1 to E12; S1 to S9; I1 to I4.
theorem test_reset_accepted : statusWord (execd (.reset 0#8 0#8 0#8) readyIdle) = 0x00000003#32 := by decide
theorem test_reset_not_ready_E12 : statusWord (execd (.reset 0#8 0#8 0#8) { State.reset with intLine := .high }) = 0x00000200#32 := by decide
theorem test_read_latches : (execd (.read 0xFF#8 0x12#8 0xAB#8) readyIdle).block.frame = [0x03#8, 0xFF#8, 0xFF#8] ∧
    (execd (.read 0xFF#8 0x12#8 0xAB#8) readyIdle).block.arg1 = 0xAB#8 := by decide
theorem test_read_in_init_E9 :
    statusWord (execd (.read 0#8 0#8 0#8) (inPhase .initLines { State.reset with intLine := .high })) = 0x00000101#32 := by decide
theorem test_write_frame_F6 : (execd (.write 0x0F#8 0x80#8 0#8) readyIdle).block.frame = [0x02#8, 0x0F#8, 0x80#8] := by decide
theorem test_bitModify_frame_V1 : (execd (.bitModify 0x0F#8 0x35#8 0x21#8) readyIdle).block.frame =
    [0x05#8, 0x0F#8, 0b00110101#8, 0b00100001#8] := by decide
theorem test_readStatus_frame_F11 : (execd (.readStatus 0#8 0#8 0#8) readyIdle).block.frame = [0xA0#8, 0xFF#8] := by decide
theorem test_rxStatus_frame_F12 : (execd (.rxStatus 0xFF#8 0xFF#8 0xFF#8) readyIdle).block.frame = [0xB0#8, 0xFF#8] := by decide
theorem test_rejectReadRx_E2 : statusWord (execd (.cmdRejectReadRx 0#8 0#8 0#8) readyIdle) = 0x00000402#32 ∧
    (execd (.cmdRejectReadRx 0#8 0#8 0#8) readyIdle).trace = [.reject .badOp] := by decide
theorem test_rejectReadRx_busy_E8 : statusWord (execd (.cmdRejectReadRx 0#8 0#8 0#8) (reading 1#3)) = 0x00000113#32 := by decide
theorem test_rejectWriteRx_E3 : statusWord (execd (.cmdRejectWriteRx 0#8 0#8 0#8) readyIdle) = 0x00000402#32 := by decide
theorem test_rejectRts_E4 : statusWord (execd (.cmdRejectRequestToSend 0#8 0#8 0#8) readyIdle) = 0x00000402#32 := by decide
theorem test_rejectOther_E7 : statusWord (execd (.cmdRejectOther 0x04#8 0#8 0#8 0#8) readyIdle) = 0x00000402#32 := by decide
theorem test_init_I1 : statusWord (execd (.init false 0#30) { State.reset with intLine := .high }) = 0x00000001#32 := by decide
theorem test_init_clear_busy_E11 :
    statusWord (execd (.init true 0#30) { settling with block := { settling.block with errBadOp := true } }) = 0x00000103#32 := by decide
theorem test_clrErr_R97 :
    statusWord (execd (.clrErr 0#30) { readyIdle with block := { readyIdle.block with errBusy := true, errBadOp := true } }) =
      0x00000002#32 := by decide
theorem test_rdStatus_S9 : (execd .rdStatus { reading 1#3 with intLine := .low }).reads = [0x00000017#32] := by decide
theorem test_rdStatus_undriven_S1 : (execd .rdStatus State.reset).reads = [0x00000000#32] := by decide
theorem test_pending_V4 : (execd .hasPendingEvent { readyIdle with intLine := .low }).reads = [1#32] ∧
    (execd .hasPendingEvent readyIdle).reads = [0#32] := by decide
theorem test_rdResult_R88 : (execd .rdResult { readyIdle with block := { readyIdle.block with result := 0x5C#8 } }).reads =
    [0x0000005C#32] := by decide
theorem test_rdCmd_S4 : (execd .rdCmd (reading 1#3)).reads = [0#32] := by decide
theorem test_rdCtrl_S5 : (execd .rdCtrl (reading 1#3)).reads = [0#32] := by decide
theorem test_wrResult_S6 : execd (.wrResult 0xFFFFFFFF#32) readyIdle = readyIdle := by decide
theorem test_wrStatus_S7 : execd (.wrStatus 0#32) readyIdle = readyIdle := by decide

/-! ## One step each of the other agents -/

theorem test_capture_third_reply_F2 :
    let t := stepped (withTurns [.transport 0x5C#8] (reading 2#3))
    t.trace = [.xchg 0xFF#8 0x5C#8] ∧ t.block.cap = 0x5C#8 ∧ t.block.phase = .deassert ∧ t.block.xferDone = true := by decide
theorem test_second_reply_discarded_F2 :
    let t := stepped (withTurns [.transport 0x99#8] (reading 1#3))
    t.trace = [.xchg 0x2A#8 0x99#8] ∧ t.block.cap = 0x00#8 ∧ t.block.k = 2#3 ∧ t.block.xferDone = false := by decide
theorem test_deassert_loads_result_F2 :
    let s := inPhase .deassert (reading 3#3)
    let t := stepped (withTurns [.sequencer] { s with block := { s.block with cap := 0x5C#8 } })
    statusWord t = 0x0000000A#32 ∧ resultWord t = 0x0000005C#32 ∧ t.trace = [.csHigh] := by decide
theorem test_settle_end_V5 : statusWord (stepped (withTurns [.settleTimer] settling)) = 0x00000002#32 := by decide
theorem test_reset_mid_frame_R1 :
    let t := stepped (withTurns [.resetPin false] (reading 1#3))
    t.trace = [.csHigh] ∧ t.block = Block.reset ∧ statusWord t = 0x00000000#32 := by decide
theorem test_exchange_bit_order : risingEdges ⟨false, false⟩ (exchange 0x03#8 0x80#8).wave =
    [false, false, false, false, false, false, true, true] ∧ (exchange 0x03#8 0x80#8).rx = 0x80#8 := by decide
theorem test_bit_modify_law_V1 : bitModified 0xFF#8 0x35#8 0x21#8 = 0xEB#8 ∧ bitModified 0xF0#8 0x35#8 0x21#8 = 0xE1#8 := by decide
/-- R45: a status frame is answered with its byte only where byte 1 is the filler. -/
theorem test_reference_status_replies_R45 (p : RefPeripheral) :
    p.replies [0xA0#8, 0xFF#8] = [0xFF#8, p.stat] ∧ p.replies [0xB0#8, 0xFF#8] = [0xFF#8, p.rx] ∧
    p.replies [0xA0#8, 0x00#8] = [0xFF#8, 0xFF#8] ∧ p.replies [0xB0#8, 0x7F#8] = [0xFF#8, 0xFF#8] := ⟨rfl, rfl, rfl, rfl⟩
theorem test_withFetchWord_runs_first : (stepped (State.reset.withFetchWord 8 0x03)).trace = [.reject .notReady] := by decide

/-! ## Witnesses: the hypotheses of each statement, met together -/

/-- A state ready and idle satisfies the invariant. -/
theorem witness_inv_readyIdle : readyIdle.Inv :=
  ⟨by constructor <;> decide, rfl, by decide⟩

/-- A state in DEASSERT of a READ satisfies the invariant: the trace holds the three exchanges. -/
def closing : State :=
  { inPhase .deassert (reading 3#3) with
    block := { (inPhase .deassert (reading 3#3)).block with cap := 0x5C#8 }
    trace := [.csLow, .xchg 0x03#8 0x11#8, .xchg 0x2A#8 0x22#8, .xchg 0xFF#8 0x5C#8] }

theorem witness_inv_closing : closing.Inv := by
  refine ⟨by constructor <;> decide, ?_, by decide⟩
  refine ⟨[(0x03#8, 0x11#8), (0x2A#8, 0x22#8), (0xFF#8, 0x5C#8)], by decide, by decide, ?_⟩
  intro c hc _
  have : c = 2 := by simpa [closing, inPhase, reading, capIdx] using hc.symm
  subst this
  decide

theorem witness_DecodeOfEncodeIsIdentity : (Instr.cmdRejectOther 0x04#8 1#8 2#8 3#8).WellFormed := by decide

theorem witness_DecodedRequestReencodes : ∃ r i, decode r = .ok i := ⟨hostRead 0x4#4, .rdStatus, by decide⟩

theorem witness_DecodeTotalOnAlignedWords :
    (∃ a : HostAccess, a.width = .w32 ∧ a.offset.toNat % 4 = 0 ∧ a.offset = 0xC#4) ∧
    (∃ a : HostAccess, a.width = .w32 ∧ a.offset.toNat % 4 ≠ 0 ∧ a.offset = 0xF#4) ∧
    ∃ a : HostAccess, a.width ≠ .w32 :=
  ⟨⟨⟨.write, .w32, 0xC#4, 0#32⟩, by decide⟩, ⟨⟨.write, .w32, 0xF#4, 0#32⟩, by decide⟩, ⟨⟨.write, .w8, 0x0#4, 0#32⟩, by decide⟩⟩

/-- Idle and ready (AcceptedOpcodesAreExactlySix, SupportedCommandIsAccepted, UnsupportedOpcodeIsRejected with OP 0x00 and 0xFF). -/
theorem witness_idle_ready : readyIdle.block.phase = .idle ∧ readyIdle.block.ready = true ∧
    (Instr.cmdRejectOther 0x00#8 0#8 0#8 0#8).WellFormed ∧ (Instr.cmdRejectOther 0xFF#8 0#8 0#8 0#8).WellFormed := by decide

theorem witness_StepRunsDecodedOperation :
    (∃ (s : State) (r : HostRequest) (line : IntLine) (rest : List Turn) (i : Instr),
      s.rstN = true ∧ s.agenda = .host r line :: rest ∧ decode r = .ok i) ∧
    ∃ (nbits w : Nat) (i : Instr), decodeTableWord nbits w = some i :=
  ⟨⟨withTurns [.host (hostRead 0x4#4) .low] readyIdle, hostRead 0x4#4, .low, [], .rdStatus, by decide⟩,
   ⟨8, 0xC0, .reset 0#8 0#8 0#8, by decide⟩⟩

theorem witness_StepRefusesNarrowAndMisaligned :
    (∃ (s : State) (a : HostAccess) (line : IntLine) (rest : List Turn),
      s.agenda = .host (.access a) line :: rest ∧ a.width ≠ .w32) ∧
    ∃ (s : State) (a : HostAccess) (line : IntLine) (rest : List Turn),
      s.agenda = .host (.access a) line :: rest ∧ a.width = .w32 ∧ a.offset.toNat % 4 ≠ 0 :=
  ⟨⟨withTurns [.host (.access ⟨.read, .w16, 0x4#4, 0#32⟩) .low] readyIdle, ⟨.read, .w16, 0x4#4, 0#32⟩, .low, [], by decide⟩,
   ⟨withTurns [.host (.access ⟨.read, .w32, 0x1#4, 0#32⟩) .low] readyIdle, ⟨.read, .w32, 0x1#4, 0#32⟩, .low, [], by decide⟩⟩

/-- The first address past the window, and the last byte offset in it. -/
theorem witness_PlatformAccessReachesOnlyTheWindow :
    (∃ (s : State) (m : MemAccess) (line : IntLine) (rest : List Turn), s.agenda = .memory m line :: rest ∧
      (m.address < Config.base ∨ Config.base + 16 ≤ m.address)) ∧
    ∃ (s : State) (m : MemAccess) (line : IntLine) (rest : List Turn) (off : BitVec 4), s.agenda = .memory m line :: rest ∧
      m.address = Config.base + off.toNat ∧ off = 0xF#4 :=
  ⟨⟨withTurns [.memory ⟨.read, .w32, Config.base + 16, 0#32⟩ .low] readyIdle, ⟨.read, .w32, Config.base + 16, 0#32⟩, .low, [], rfl,
      .inr (Nat.le_refl _)⟩,
   ⟨withTurns [.memory ⟨.read, .w32, Config.base + 15, 0#32⟩ .low] readyIdle, ⟨.read, .w32, Config.base + 15, 0#32⟩, .low, [], 0xF#4,
      rfl, rfl, rfl⟩⟩

theorem witness_WriteWhileBusyIsRejected :
    cmdFields (.cmdRejectReadRx 1#8 2#8 3#8) = some (0x90#8, 1#8, 2#8, 3#8) ∧ settling.block.phase ≠ .idle ∧
    (reading 0#3).block.phase ≠ .idle := by decide

theorem witness_CommandBeforeInitIsRejected :
    cmdFields (.cmdRejectOther 0x00#8 1#8 2#8 3#8) = some (0x00#8, 1#8, 2#8, 3#8) ∧
    State.reset.block.phase = .idle ∧ State.reset.block.ready = false := by decide

theorem witness_InitIsAcceptedWhenIdle : State.reset.block.phase = .idle ∧ readyIdle.block.phase = .idle := by decide

theorem witness_HostOperationsLeaveTheBusAlone :
    (∃ t, exec (.write 0x0F#8 0x80#8 0#8) readyIdle = .next t) ∧ (encode (.write 0x0F#8 0x80#8 0#8)).busAccess.dir = .write ∧
    (∃ t, exec .hasPendingEvent readyIdle = .next t) ∧ (encode .hasPendingEvent).busAccess.dir = .read :=
  ⟨⟨_, rfl⟩, rfl, ⟨_, rfl⟩, rfl⟩

theorem witness_AssertStepSelectsThePeripheral :
    let s := withTurns [.sequencer] (inPhase .assert readyIdle)
    s.rstN = true ∧ s.agenda = .sequencer :: [] ∧ s.block.phase = .assert := by decide

/-- The first and the last exchange of a READ. -/
theorem witness_ExchangeCompletionStep :
    (let s := withTurns [.transport 0x11#8] (reading 0#3)
     s.rstN = true ∧ s.agenda = .transport 0x11#8 :: [] ∧ s.block.phase = .xfer ∧
      (frame s.block.op s.block.addr s.block.arg0 s.block.arg1)[s.block.k.toNat]? = some 0x03#8) ∧
    (let s := withTurns [.transport 0x5C#8] (reading 2#3)
     s.rstN = true ∧ s.agenda = .transport 0x5C#8 :: [] ∧ s.block.phase = .xfer ∧
      (frame s.block.op s.block.addr s.block.arg0 s.block.arg1)[s.block.k.toNat]? = some 0xFF#8) := by decide

theorem witness_DeassertStepReleasesAndCaptures :
    let s := withTurns [.sequencer] closing
    s.rstN = true ∧ s.agenda = .sequencer :: [] ∧ s.block.phase = .deassert := by decide

theorem witness_InitStepsConfigureLinesAndTransport :
    (let s := withTurns [.sequencer] (inPhase .initLines State.reset)
     s.rstN = true ∧ s.agenda = .sequencer :: [] ∧ s.block.phase = .initLines) ∧
    (let s := withTurns [.sequencer] (inPhase .initXport State.reset)
     s.rstN = true ∧ s.agenda = .sequencer :: [] ∧ s.block.phase = .initXport) := by decide

theorem witness_SettleEndFinishesInit :
    let s := withTurns [.settleTimer] settling
    s.rstN = true ∧ s.agenda = .settleTimer :: [] ∧ s.block.phase = .settle := by decide

theorem witness_DisabledAgentChangesNothing :
    (let s := withTurns [.sequencer] readyIdle
     s.rstN = true ∧ s.agenda = .sequencer :: [] ∧ s.block.phase = .idle) ∧
    (let s := withTurns [.transport 0#8] readyIdle
     s.rstN = true ∧ s.agenda = .transport 0#8 :: [] ∧ s.block.phase ≠ .xfer) ∧
    (let s := withTurns [.settleTimer] readyIdle
     s.rstN = true ∧ s.agenda = .settleTimer :: [] ∧ s.block.phase ≠ .settle) := by decide

theorem witness_BlockResetFromAnyState :
    (withTurns [.resetPin false] (reading 1#3)).agenda = .resetPin false :: [] ∧
    (withTurns [.resetPin true] (reading 1#3)).agenda = .resetPin true :: [] := by decide

theorem witness_ResetValuesHoldWhileAsserted :
    let s : State := { State.reset with rstN := false, agenda := [.host (hostWrite 0x0#4 0x00000003#32) .low] }
    s.rstN = false ∧ s.block = State.reset.block ∧ step s = .next (stepped s) := ⟨rfl, rfl, rfl⟩

/-- The invariant and a step (InvariantKeptByEveryStep, InvariantExcludesFaults, SelectMovesOnlyByRule rising). -/
theorem witness_invariant_and_step : (withTurns [.sequencer] closing).Inv ∧
    step (withTurns [.sequencer] closing) = .next (stepped (withTurns [.sequencer] closing)) ∧
    closing.block.csN = false ∧ (stepped (withTurns [.sequencer] closing)).block.csN = true :=
  ⟨⟨witness_inv_closing.block, witness_inv_closing.trace, by decide⟩, rfl, rfl, by decide⟩

/-- A refusal from a state with the invariant (InvariantExcludesFaults). -/
theorem witness_InvariantExcludesFaults :
    (withTurns [.host (.access ⟨.read, .w8, 0x4#4, 0#32⟩) .low] readyIdle).Inv ∧
    step (withTurns [.host (.access ⟨.read, .w8, 0x4#4, 0#32⟩) .low] readyIdle) = .refused (.narrowAccess .w8) :=
  ⟨⟨witness_inv_readyIdle.block, witness_inv_readyIdle.trace, by decide⟩, rfl⟩

theorem witness_RunsKeepTheFraming : (withTurns [.sequencer] closing).Inv ∧
    runFor 1 (withTurns [.sequencer] closing) = .next (stepped (withTurns [.sequencer] closing)) :=
  ⟨witness_invariant_and_step.1, rfl⟩

/-- The step premises of PhaseMovesOnlyByItsEdges, and of the statements on READY, RESULT, RVALID, the latch, the index and the capture
register, with the register moving: an accepted READ, the end of INIT, a capture, an exchange. -/
theorem witness_register_moves :
    (let s := withTurns [.host (hostWrite 0x0#4 0x00002A03#32) .low] readyIdle
     s.rstN = true ∧ (stepped s).block.phase = .assert ∧ (stepped s).block.op ≠ s.block.op) ∧
    (let s := withTurns [.settleTimer] { settling with block := { settling.block with initMode := true, ready := false } }
     s.rstN = true ∧ s.block.ready = false ∧ (stepped s).block.ready = true) ∧
    (let s := withTurns [.host (hostWrite 0xC#4 0x00000001#32) .low] { readyIdle with block := { readyIdle.block with rvalid := true } }
     s.rstN = true ∧ s.block.ready = true ∧ (stepped s).block.ready = false ∧ s.block.rvalid = true ∧ (stepped s).block.rvalid = false) ∧
    (let s := withTurns [.sequencer] closing
     s.rstN = true ∧ (stepped s).block.result ≠ s.block.result ∧ s.block.rvalid = false ∧ (stepped s).block.rvalid = true) ∧
    (let s := withTurns [.transport 0x5C#8] (reading 2#3)
     s.rstN = true ∧ (stepped s).block.k ≠ s.block.k ∧ (stepped s).block.cap ≠ s.block.cap) := by decide

/-- Those states do step. -/
theorem witness_register_moves_step :
    (let s := withTurns [.host (hostWrite 0x0#4 0x00002A03#32) .low] readyIdle
     step s = .next (stepped s)) ∧
    (let s := withTurns [.settleTimer] { settling with block := { settling.block with initMode := true, ready := false } }
     step s = .next (stepped s)) ∧
    (let s := withTurns [.host (hostWrite 0xC#4 0x00000001#32) .low] { readyIdle with block := { readyIdle.block with rvalid := true } }
     step s = .next (stepped s)) ∧
    (let s := withTurns [.sequencer] closing
     step s = .next (stepped s)) ∧
    (let s := withTurns [.transport 0x5C#8] (reading 2#3)
     step s = .next (stepped s)) := ⟨rfl, rfl, rfl, rfl, rfl⟩

/-- Each flag set by its rejection and cleared by CLR_ERR (StickyFlagsMoveOnlyByRule). -/
theorem witness_StickyFlagsMoveOnlyByRule :
    (let s := withTurns [.host (hostWrite 0x0#4 0x00000003#32) .low] settling
     s.rstN = true ∧ s.block.errBusy = false ∧ (stepped s).block.errBusy = true) ∧
    (let s := withTurns [.host (hostWrite 0x0#4 0x00000003#32) .low] State.reset
     s.rstN = true ∧ s.block.errNotReady = false ∧ (stepped s).block.errNotReady = true) ∧
    (let s := withTurns [.host (hostWrite 0x0#4 0x00000090#32) .low] readyIdle
     s.rstN = true ∧ s.block.errBadOp = false ∧ (stepped s).block.errBadOp = true) ∧
    (let s := withTurns [.host (hostWrite 0xC#4 0x00000002#32) .low] { readyIdle with block := { readyIdle.block with errBadOp := true } }
     s.rstN = true ∧ s.block.errBadOp = true ∧ (stepped s).block.errBadOp = false) := by decide

theorem witness_StickyFlagsMoveOnlyByRule_step :
    (let s := withTurns [.host (hostWrite 0x0#4 0x00000090#32) .low] readyIdle
     step s = .next (stepped s) ∧ (stepped s).trace = s.trace ++ [.reject .badOp]) ∧
    (let s := withTurns [.host (hostWrite 0xC#4 0x00000002#32) .low] { readyIdle with block := { readyIdle.block with errBadOp := true } }
     step s = .next (stepped s)) := ⟨⟨rfl, rfl⟩, rfl⟩

theorem witness_TransportEnabledOnlyByInit :
    (let s := withTurns [.sequencer] (inPhase .initXport State.reset)
     s.rstN = true ∧ s.block.xportEn = false ∧ (stepped s).block.xportEn = true ∧ step s = .next (stepped s)) ∧
    (let s := withTurns [.resetPin false] readyIdle
     s.rstN = true ∧ s.block.xportEn = true ∧ (stepped s).block.xportEn = false ∧ step s = .next (stepped s)) ∧
    readyIdle.Inv ∧ readyIdle.block.ready = true :=
  ⟨⟨rfl, rfl, rfl, rfl⟩, ⟨rfl, rfl, rfl, rfl⟩, witness_inv_readyIdle, rfl⟩

/-- Select falling, from a state with the invariant (SelectMovesOnlyByRule). -/
theorem witness_SelectMovesOnlyByRule :
    let s := withTurns [.sequencer] (inPhase .assert { readyIdle with block := { readyIdle.block with op := 0x03#8 } })
    s.Inv ∧ step s = .next (stepped s) ∧ s.block.csN = true ∧ (stepped s).block.csN = false :=
  ⟨⟨by constructor <;> decide, rfl, by decide⟩, rfl, rfl, by decide⟩

theorem witness_TraceGrowsByItsOwnSteps :
    let s := withTurns [.transport 0x11#8] (reading 0#3)
    step s = .next (stepped s) ∧ (stepped s).trace ≠ s.trace := ⟨rfl, by decide⟩

theorem witness_DeassertClosesExactlyTheFrame : closing.Inv ∧ closing.block.phase = .deassert := ⟨witness_inv_closing, rfl⟩

/-- The shortest and the longest frame (CommandRunsExactlyItsFrame). -/
theorem witness_CommandRunsExactlyItsFrame :
    (let i := Instr.reset 0#8 0#8 0#8
     let s := withTurns [.host (encode i) .high, .sequencer, .transport 1#8, .sequencer] readyIdle
     s.rstN = true ∧ s.block.phase = .idle ∧ s.block.ready = true ∧ i.WellFormed ∧
      cmdFields i = some (0xC0#8, 0#8, 0#8, 0#8) ∧ supported 0xC0#8 = true ∧
      [1#8].length = (frame 0xC0#8 0#8 0#8 0#8).length ∧
      s.agenda = .host (encode i) .high :: .sequencer :: ([1#8].map Turn.transport ++ .sequencer :: [])) ∧
    (let i := Instr.bitModify 0x0F#8 0x35#8 0x21#8
     let s := withTurns [.host (encode i) .high, .sequencer, .transport 1#8, .transport 2#8, .transport 3#8, .transport 4#8,
       .sequencer] readyIdle
     s.rstN = true ∧ s.block.phase = .idle ∧ s.block.ready = true ∧ i.WellFormed ∧
      cmdFields i = some (0x05#8, 0x0F#8, 0x35#8, 0x21#8) ∧ supported 0x05#8 = true ∧
      [1#8, 2#8, 3#8, 4#8].length = (frame 0x05#8 0x0F#8 0x35#8 0x21#8).length ∧
      s.agenda = .host (encode i) .high :: .sequencer :: ([1#8, 2#8, 3#8, 4#8].map Turn.transport ++ .sequencer :: [])) := by decide

theorem witness_InitRunsTheResetFrame :
    let s := withTurns [.host (encode (.init true 0#30)) .high, .sequencer, .sequencer, .sequencer, .transport 1#8, .sequencer,
      .settleTimer] State.reset
    s.rstN = true ∧ s.block.phase = .idle ∧
      s.agenda = .host (encode (.init true 0#30)) .high :: .sequencer :: .sequencer :: .sequencer :: .transport 1#8 ::
        .sequencer :: .settleTimer :: [] := by decide

theorem witness_CapturedReplyIsReturnedUnmodified :
    readyIdle.rstN = true ∧ readyIdle.block.phase = .idle ∧ readyIdle.block.ready = true ∧
    ∃ s : State, s.block = readyIdle.block ∧ s.rstN = true ∧
      s.agenda = [.host (encode (.read 0x0E#8 0#8 0#8)) .high, .sequencer, .transport 0xFF#8, .transport 0xFF#8, .transport 0x80#8,
        .sequencer, .host (encode .rdResult) .high] ++ [] :=
  ⟨rfl, rfl, rfl, withTurns [.host (encode (.read 0x0E#8 0#8 0#8)) .high, .sequencer, .transport 0xFF#8, .transport 0xFF#8,
    .transport 0x80#8, .sequencer, .host (encode .rdResult) .high] readyIdle, rfl, rfl, rfl⟩

theorem witness_HangLastsUntilTransportOrReset :
    let s := withTurns [.host (hostWrite 0x0#4 0x00000003#32) .low, .sequencer] (reading 0#3)
    s.rstN = true ∧ s.block.phase = .xfer ∧ 2 ≤ s.agenda.length ∧
    (∀ u ∈ s.agenda.take 2, (∀ rx, u ≠ .transport rx) ∧ u ≠ .resetPin false) ∧
    runFor 2 s = .next (stepped (stepped s)) :=
  ⟨rfl, rfl, by decide, by simp [withTurns], rfl⟩

theorem witness_HostCannotDisturbAFrame :
    let s := withTurns [.host (hostWrite 0xC#4 0x00000003#32) .low] (reading 1#3)
    s.rstN = true ∧ s.block.phase ≠ .idle ∧ agentOf (nextTurn s) = .host ∧ step s = .next (stepped s) :=
  ⟨rfl, by decide, rfl, rfl⟩

theorem witness_IdleIsTheCompletionPoint : readyIdle.Inv ∧ (statusWord readyIdle).getLsbD 0 = false :=
  ⟨witness_inv_readyIdle, by decide⟩

theorem witness_BusyEndsWithinSixTurns : closing.Inv ∧ closing.rstN = true := ⟨witness_inv_closing, rfl⟩

end Sys2Proof.Tests
end

section
/-! SUPPORT. Which platform accesses reach the port (R7, R38), and which steps stop (R8, R33). -/

namespace Sys2Proof

/-- An address outside the window has no window offset (R38). -/
theorem windowOffset_outside {address : Nat} (h : address < Config.base ∨ Config.base + 16 ≤ address) :
    windowOffset address = none :=
  if_neg (by omega)

/-- The address `BASE + off` lies in the window, at offset `off` (R38). -/
@[simp] theorem windowOffset_base_add (off : BitVec 4) : windowOffset (Config.base + off.toNat) = some off := by
  have inside : Config.base ≤ Config.base + off.toNat ∧ Config.base + off.toNat < Config.base + 16 := by omega
  rw [windowOffset, if_pos inside, Nat.add_sub_cancel_left, BitVec.ofNat_toNat, BitVec.setWidth_eq]

/-- A platform access outside the window makes no port access (R38). -/
theorem portAccess_outside {m : MemAccess} (h : m.address < Config.base ∨ Config.base + 16 ≤ m.address) :
    portAccess m = none := by
  simp [portAccess, windowOffset_outside h]

/-- A platform access at `BASE + off` is the port access at offset `off` (R38). -/
theorem portAccess_base_add {m : MemAccess} {off : BitVec 4} (h : m.address = Config.base + off.toNat) :
    portAccess m = some ⟨m.dir, m.width, off, m.data⟩ := by
  simp [portAccess, h]

/-- The offsets without a register are the misaligned ones (R31, R33). -/
theorem windowReg_eq_none_iff (off : BitVec 4) : windowReg off = none ↔ off.toNat % 4 ≠ 0 := by
  revert off; decide

/-- An access is refused for its width, or for its offset (R33). -/
theorem decode_error_cases {r : HostRequest} {e : DecodeError} (h : decode r = .error e) :
    (∃ w, w ≠ .w32 ∧ e = .narrow w) ∨ ∃ off : BitVec 4, off.toNat % 4 ≠ 0 ∧ e = .misaligned off := by
  cases r with
  | pending => cases h
  | access a =>
    simp only [decode, decodeAccess] at h
    split at h
    · split at h
      · cases h
      · rename_i noReg
        cases h
        exact .inr ⟨a.offset, (windowReg_eq_none_iff _).mp noReg, rfl⟩
    · rename_i narrow
      cases h
      exact .inl ⟨a.width, narrow, rfl⟩

end Sys2Proof

namespace Sys2Proof.Machine

/-- A host request that decodes completes, and one that does not is refused (R33, R49). -/
theorem hostStep_completes_or_refuses (r : HostRequest) (s : State) :
    (∃ t, hostStep r s = .next t) ∨ ∃ e, decode r = .error e ∧ hostStep r s = .refused (refusalOf e) := by
  cases d : decode r with
  | ok i =>
    obtain ⟨t, ht⟩ := exec_next i s
    exact .inl ⟨holdInReset s t, by simp [hostStep, d, ht, held]⟩
  | error e => exact .inr ⟨e, rfl, by simp [hostStep, d]⟩

/-- With the index inside the frame while an exchange is in progress, the transport's turn completes (R54, R67). -/
theorem transportStep_completes {s : State} (miso : Byte)
    (index : s.block.phase = .xfer → s.block.k.toNat < s.block.frame.length) : ∃ t, transportStep miso s = .next t := by
  by_cases p : s.block.phase = .xfer
  · have byte := List.getElem?_eq_getElem (index p)
    exact ⟨_, by rw [transportStep, if_pos p, completeExchange_some miso byte]⟩
  · exact ⟨s, if_neg p⟩

/-- From a block with the invariant a turn completes, or is a host request that does not decode and is refused for that (R8). -/
theorem runTurn_completes_or_refuses {s : State} (inv : s.block.Inv) (turn : Turn) :
    (∃ t, runTurn turn s = .next t) ∨ ∃ r e, decode r = .error e ∧ runTurn turn s = .refused (refusalOf e) := by
  cases turn with
  | host r line => exact (hostStep_completes_or_refuses r _).imp_right fun h => ⟨r, h⟩
  | memory m line =>
    simp only [runTurn, memoryStep]
    cases portAccess m with
    | some a => exact (hostStep_completes_or_refuses (.access a) _).imp_right fun h => ⟨.access a, h⟩
    | none => exact .inl ⟨_, rfl⟩
  | sequencer => exact .inl ⟨_, rfl⟩
  | transport miso =>
    obtain ⟨t, ht⟩ := transportStep_completes miso inv.index
    exact .inl ⟨holdInReset s t, by simp [runTurn, ht, held]⟩
  | settleTimer => exact .inl ⟨_, rfl⟩
  | resetPin level => exact .inl ⟨_, rfl⟩

/-- From a block with the invariant a step completes, or is refused because its request does not decode (R8). -/
theorem step_completes_or_refuses {s : State} (inv : s.block.Inv) :
    (∃ t, step s = .next t) ∨ ∃ r e, decode r = .error e ∧ step s = .refused (refusalOf e) :=
  runTurn_completes_or_refuses (by rwa [takeTurn_block]) (nextTurn s)

/-- Settles O11: both clauses are what `portAccess` makes of the address, read through the turn on the agenda. -/
theorem platformAccessReachesOnlyTheWindow : Obligations.PlatformAccessReachesOnlyTheWindow := by
  intro s m line rest onAgenda
  rw [step_cons onAgenda]
  constructor
  · intro outside
    simp [runTurn, memoryStep, portAccess_outside outside, sampleInt]
  · intro off inside
    rw [step_cons rfl]
    simp [runTurn, memoryStep, portAccess_base_add inside]

/-- Settles O34: a step that does not complete is refused, for a request that does not decode. -/
theorem invariantExcludesFaults : Obligations.InvariantExcludesFaults := by
  intro s inv
  rcases step_completes_or_refuses inv.block with ⟨t, completes⟩ | ⟨r, e, undecoded, refuses⟩
  · simp [completes]
  · refine ⟨by simp [refuses], fun x hx => ?_⟩
    obtain rfl : refusalOf e = x := by simpa [refuses] using hx
    rcases decode_error_cases undecoded with ⟨w, narrow, rfl⟩ | ⟨off, misaligned, rfl⟩
    · exact .inl ⟨w, narrow, rfl⟩
    · exact .inr ⟨off, misaligned, rfl⟩

end Sys2Proof.Machine
end

section
/-! SUPPORT. Each operation on the block keeps the block's own invariant (R20 to R27, R54, R71). -/

namespace Sys2Proof.Machine

/-- The block at its reset values has the invariant (R29). -/
theorem Block.Inv.reset : Block.reset.Inv := by constructor <;> decide

/-- The invariant says nothing about the error flags: a block has it when it does with the flags cleared. -/
theorem Block.inv_clearErrs_iff (b : Block) : b.clearErrs.Inv ↔ b.Inv :=
  ⟨fun h => { h with }, fun h => { h with }⟩

/-- Two blocks that differ in the error flags alone have the invariant together (R24). -/
theorem Block.Inv.of_clearErrs_eq {b c : Block} (h : b.Inv) (e : c.clearErrs = b.clearErrs) : c.Inv :=
  (inv_clearErrs_iff c).mp (e ▸ (inv_clearErrs_iff b).mpr h)

theorem Block.clearErrs_setErr (kind : ErrKind) (b : Block) : (b.setErr kind).clearErrs = b.clearErrs := by
  cases kind <;> rfl

/-- In a CTRL write that clears the flags first, the clearing is invisible to a second one (R92). -/
theorem Block.clearErrs_ite (clr : Bool) (b : Block) : (if clr then b.clearErrs else b).clearErrs = b.clearErrs := by
  cases clr <;> rfl

/-- A rejected write keeps the invariant, with the flags cleared first or not (R92, R100). -/
theorem Block.Inv.rejected {b : Block} (h : b.Inv) (clr : Bool) (kind : ErrKind) :
    ((if clr then b.clearErrs else b).setErr kind).Inv :=
  h.of_clearErrs_eq (by rw [clearErrs_setErr, clearErrs_ite])

/-- With READY = 1 the block is not in INIT (R27). -/
theorem Block.Inv.notInit {b : Block} (h : b.Inv) (ready : b.ready = true) : b.initMode = false :=
  Bool.eq_false_iff.mpr fun m => by simpa [ready] using h.initReady m

/-- Outside IDLE the result is not valid (R23). -/
theorem Block.Inv.notValid {b : Block} (h : b.Inv) (p : b.phase ≠ .idle) : b.rvalid = false :=
  Bool.eq_false_iff.mpr (p ∘ h.validIdle)

/-- An accepted CMD write keeps the invariant (R72). -/
theorem Block.Inv.accept {b : Block} (h : b.Inv) {op : Byte} (a v d : Byte) (p : b.phase = .idle)
    (ready : b.ready = true) (ok : supported op = true) : (b.accept op a v d).Inv :=
  { h with
    select := by simp [h.select, p, Phase.selected]
    timer := by simp [h.timer, p]
    frameXport := fun _ => h.readyXport ready
    initReady := by simp [h.notInit ready]
    initPhase := by simp
    initFrame := by simp [h.notInit ready]
    frameReady := fun _ _ => ready
    latched := fun _ => ok
    index := by simp
    allSent := by simp
    settleOp := by simp
    validIdle := by simp
    notDone := by simp }

/-- An accepted INIT keeps the invariant (R93). -/
theorem Block.Inv.acceptInit {b : Block} (h : b.Inv) (p : b.phase = .idle) : b.acceptInit.Inv :=
  { h with
    select := by simp [h.select, p, Phase.selected]
    timer := by simp [h.timer, p]
    readyXport := by simp
    frameXport := by simp [Phase.framing]
    initReady := by simp
    initPhase := fun _ => rfl
    initFrame := by simp [Phase.framing]
    frameReady := by simp
    latched := by simp [Phase.framing]
    index := by simp
    allSent := by simp
    settleOp := by simp
    validIdle := by simp
    notDone := by simp }

/-- INIT_LINES keeps the invariant (R94). -/
theorem Block.Inv.initLines {b : Block} (h : b.Inv) (p : b.phase = .initLines) : b.initLines.Inv :=
  { h with
    select := rfl
    sckLow := rfl
    mosiLow := rfl
    timer := by simp [h.timer, p]
    frameXport := by simp [Phase.framing]
    initReady := fun m => ⟨(h.initReady m).1, by simp⟩
    initPhase := fun _ => h.initPhase (.inl p)
    initFrame := by simp [Phase.framing]
    frameReady := by simp [Phase.framing]
    latched := by simp [Phase.framing]
    index := by simp
    allSent := by simp
    settleOp := by simp
    validIdle := by simp [h.notValid (by simp [p])]
    notDone := by simp }

/-- INIT_XPORT keeps the invariant (R95): the frame it latches is the Reset frame. -/
theorem Block.Inv.initXport {b : Block} (h : b.Inv) (p : b.phase = .initXport) : b.initXport.Inv :=
  have inInit : b.initMode = true := h.initPhase (.inr p)
  { h with
    select := by simp [h.select, p, Phase.selected]
    timer := by simp [h.timer, p]
    readyXport := fun _ => rfl
    frameXport := fun _ => rfl
    initReady := fun m => ⟨(h.initReady m).1, by simp⟩
    initPhase := fun _ => inInit
    initFrame := fun _ _ => rfl
    frameReady := by simp [inInit]
    latched := fun _ => rfl
    index := by simp
    allSent := by simp
    settleOp := by simp
    validIdle := by simp [h.notValid (by simp [p])]
    notDone := by simp }

/-- ASSERT keeps the invariant (R65): exchange 0 is one of the frame's. -/
theorem Block.Inv.assert {b : Block} (h : b.Inv) (p : b.phase = .assert) : b.assert.Inv :=
  have framing : b.phase.framing = true := by rw [p]; rfl
  { h with
    select := rfl
    timer := by simp [h.timer, p]
    frameXport := fun _ => h.frameXport framing
    initReady := fun m => ⟨(h.initReady m).1, by simp⟩
    initPhase := by simp
    initFrame := fun m _ => h.initFrame m framing
    frameReady := fun _ => h.frameReady framing
    latched := fun _ => h.latched framing
    index := fun _ => frame_length_pos _ _ _ (h.latched framing)
    allSent := by simp
    settleOp := by simp
    indexMax := by simp
    validIdle := by simp [h.notValid (by simp [p])]
    notDone := fun _ => rfl }

/-- DEASSERT keeps the invariant (R66, R81): INIT's frame and RESET's go to SETTLE, and capture nothing. -/
theorem Block.Inv.deassert {b : Block} (h : b.Inv) (p : b.phase = .deassert) : b.deassert.Inv :=
  have framing : b.phase.framing = true := by rw [p]; rfl
  have invalid : b.rvalid = false := h.notValid (by simp [p])
  have stopped : b.settle ≠ .running := by simp [h.timer, p]
  { h with
    select := by by_cases c : b.op = 0xC0#8 <;> simp [c, Phase.selected]
    timer := by simp [stopped]
    frameXport := fun _ => h.frameXport framing
    initReady := fun m => ⟨(h.initReady m).1, by simp [h.initFrame m framing]⟩
    initPhase := by simp [ite_eq_iff]
    initFrame := fun m _ => h.initFrame m framing
    frameReady := fun _ => h.frameReady framing
    latched := fun _ => h.latched framing
    index := by simp [ite_eq_iff]
    allSent := by simp [ite_eq_iff]
    settleOp := by simp
    validIdle := by by_cases c : b.op = 0xC0#8 <;> simp [c, capIdx, invalid]
    notDone := by simp [ite_eq_iff] }

/-- The next index, while an exchange is in progress: it does not wrap (R54, R67). -/
theorem Block.Inv.next_index {b : Block} (h : b.Inv) (p : b.phase = .xfer) :
    (b.k + 1#3).toNat = b.k.toNat + 1 := by
  have inFrame := h.index p
  have short : b.frame.length ≤ 4 := frame_length_le _ _ _ _
  rw [BitVec.toNat_add_of_lt] <;> simp; omega

/-- The completion of an exchange keeps the invariant (R67): with bytes left the next one starts, and after the last one the
index is the frame's length. -/
theorem Block.Inv.complete {b : Block} (h : b.Inv) (p : b.phase = .xfer) (rx : Byte) :
    ((b.complete rx).drive ⟨false, false⟩).Inv :=
  have framing : b.phase.framing = true := by rw [p]; rfl
  have inFrame := h.index p
  have short : b.frame.length ≤ 4 := frame_length_le _ _ _ _
  have next := h.next_index p
  have sameFrame : ((b.complete rx).drive ⟨false, false⟩).frame = b.frame := rfl
  { h with
    select := by by_cases last : b.k.toNat + 1 = b.frame.length <;> simp [last, h.select, p, Phase.selected]
    sckLow := rfl
    mosiLow := rfl
    timer := by simp [ite_eq_iff, h.timer, p]
    frameXport := fun _ => h.frameXport framing
    initReady := fun m => ⟨(h.initReady m).1, by simp [ite_eq_iff]⟩
    initPhase := by simp [ite_eq_iff]
    initFrame := fun m _ => h.initFrame m framing
    frameReady := fun _ => h.frameReady framing
    latched := fun _ => h.latched framing
    index := by
      rw [sameFrame]
      by_cases last : b.k.toNat + 1 = b.frame.length <;> simp [last, next]
      omega
    allSent := by
      rw [sameFrame]
      by_cases last : b.k.toNat + 1 = b.frame.length <;> simp [last, next]
    settleOp := by simp [ite_eq_iff]
    indexMax := by simp [next]; omega
    validIdle := by simp [h.notValid (by simp [p])]
    notDone := by simp }

/-- The end of SETTLE keeps the invariant (R75, R96). -/
theorem Block.Inv.endSettle {b : Block} (h : b.Inv) (p : b.phase = .settle) : b.endSettle.Inv :=
  { h with
    select := by simp [h.select, p, Phase.selected]
    timer := by simp
    readyXport := fun _ => h.frameXport (by rw [p]; rfl)
    frameXport := by simp [Phase.framing]
    initReady := by simp
    initPhase := by simp
    initFrame := by simp
    frameReady := by simp [Phase.framing]
    latched := by simp [Phase.framing]
    index := by simp
    allSent := by simp
    settleOp := by simp
    validIdle := fun _ => rfl
    notDone := by simp }

end Sys2Proof.Machine
end

section
/-! SUPPORT. Each event fits the trace to the block after its step (R30, R68). -/

namespace Sys2Proof.Machine

/-- With select high the trace is closed (R68). -/
theorem traceFits_closed {b : Block} (c : b.csN = true) (tr : List Event) :
    traceFits b tr ↔ scanTrace tr = some none := by
  simp [traceFits, c]

/-- With select low the trace has an open frame with the bytes sent so far (R68). -/
theorem traceFits_open {b : Block} (c : b.csN = false) (tr : List Event) :
    traceFits b tr ↔ ∃ xs, scanTrace tr = some (some xs) ∧ xs.map Prod.fst = b.frame.take b.k.toNat ∧
      ∀ i, capIdx b.op = some i → i < b.k.toNat → (xs.map Prod.snd)[i]? = some b.cap := by
  simp [traceFits, c]

/-- A rejection is no bus event, so the trace fits as before (R30, R100). -/
theorem traceFits_reject (b : Block) (tr : List Event) (kind : ErrKind) :
    traceFits b (tr ++ [.reject kind]) ↔ traceFits b tr := by
  simp [traceFits]

/-- The error flags have no part in the fit of the trace (R24). -/
theorem traceFits_of_clearErrs_eq {b c : Block} {tr : List Event} (h : traceFits b tr)
    (e : c.clearErrs = b.clearErrs) : traceFits c tr := by
  change traceFits c.clearErrs tr
  rw [e]
  exact h

/-- The trace stays as it is over a step that leaves select high (R71). -/
theorem traceFits_of_select_high {b c : Block} {tr : List Event} (h : traceFits b tr) (hb : b.csN = true)
    (hc : c.csN = true) : traceFits c tr :=
  (traceFits_closed hc tr).mpr ((traceFits_closed hb tr).mp h)

/-- ASSERT opens a frame with no byte sent (R65). -/
theorem traceFits_assert {b : Block} {tr : List Event} (h : traceFits b tr) (c : b.csN = true) :
    traceFits b.assert (tr ++ [.csLow]) := by
  have closed := (traceFits_closed c tr).mp h
  refine (traceFits_open rfl _).mpr ⟨[], ?_, rfl, ?_⟩
  · rw [scanTrace_append, closed]; rfl
  · simp

/-- CS_HIGH closes an open frame, whatever its bytes (R30, R66). -/
theorem scanTrace_csHigh {b : Block} {tr : List Event} (h : traceFits b tr) (c : b.csN = false) :
    scanTrace (tr ++ [.csHigh]) = some none := by
  obtain ⟨xs, opened, -, -⟩ := (traceFits_open c tr).mp h
  rw [scanTrace_append, opened]; rfl

/-- A completed exchange appends the byte of the frame at its index, and its reply is kept at the capture index (R21, R67). -/
theorem traceFits_complete {b : Block} {tr : List Event} {tx : Byte} (rx : Byte) (h : traceFits b tr) (c : b.csN = false)
    (byte : b.frame[b.k.toNat]? = some tx) (next : (b.k + 1#3).toNat = b.k.toNat + 1) :
    traceFits ((b.complete rx).drive ⟨false, false⟩) (tr ++ [.xchg tx rx]) := by
  obtain ⟨xs, opened, sent, kept⟩ := (traceFits_open c tr).mp h
  have inFrame : b.k.toNat < b.frame.length := (List.getElem?_eq_some_iff.mp byte).1
  have count : xs.length = b.k.toNat := by
    have := congrArg List.length sent
    simpa [Nat.min_eq_left inFrame.le] using this
  have sameFrame : ((b.complete rx).drive ⟨false, false⟩).frame = b.frame := rfl
  refine (traceFits_open (by simpa using c) _).mpr ⟨xs ++ [(tx, rx)], ?_, ?_, fun i captures past => ?_⟩
  · rw [scanTrace_append, opened]; rfl
  · rw [sameFrame, block_drive_k, block_complete_k, next, List.take_add_one, byte, List.map_append, sent]; rfl
  · simp only [block_drive_op, block_complete_op, block_drive_k, block_complete_k, next, block_drive_cap,
      block_complete_cap] at captures past ⊢
    obtain rfl | earlier : i = b.k.toNat ∨ i < b.k.toNat := by omega
    · simp [captures, count]
    · have other : capIdx b.op ≠ some b.k.toNat := by rw [captures]; simp; omega
      rw [if_neg other, ← kept i captures earlier, List.map_append, List.getElem?_append_left (by simpa [count])]

end Sys2Proof.Machine
end

section
/-! SUPPORT. What the reset pin does, and what it holds while it is low (R114, R115; log entries 6 and 8). -/

namespace Sys2Proof.Machine

theorem resetTrace_closed {s : State} (c : s.block.csN = true) : resetTrace s = s.trace := by simp [resetTrace, c]

/-- The fall of the reset pin records CS_HIGH where select was low, and nothing else (R30, R114). -/
theorem resetTrace_cases (s : State) :
    (s.block.csN = true ∧ resetTrace s = s.trace) ∨ (s.block.csN = false ∧ resetTrace s = s.trace ++ [.csHigh]) := by
  cases c : s.block.csN <;> simp [resetTrace, c]

/-- A block reset records no rejection (R114). -/
theorem resetTrace_ne_reject (s : State) (kind : ErrKind) : resetTrace s ≠ s.trace ++ [.reject kind] := by
  rcases resetTrace_cases s with ⟨-, r⟩ | ⟨-, r⟩ <;> simp [r]

/-- The fall of the reset pin leaves the trace closed (R114). -/
theorem traceFits_reset {s : State} (h : traceFits s.block s.trace) : traceFits Block.reset (resetTrace s) := by
  refine (traceFits_closed rfl _).mpr ?_
  rcases resetTrace_cases s with ⟨c, r⟩ | ⟨c, r⟩ <;> rw [r]
  · exact (traceFits_closed c _).mp h
  · exact scanTrace_csHigh h c

/-- What a step does while the reset pin is low: nothing to the trace, and the block is left alone or at its reset values; or
the pin is driven low again (R114; log entry 8). -/
theorem step_low {s t : State} (low : s.rstN = false) (h : step s = .next t) :
    ((t.block = Block.reset ∨ t.block = s.block) ∧ t.trace = s.trace) ∨
    (nextTurn s = .resetPin false ∧ t.block = Block.reset ∧ t.trace = resetTrace s) := by
  have low' : (takeTurn s).rstN = false := by simpa using low
  rcases step_cases h with ⟨i, line, u, -, -, -, rfl⟩ | ⟨m, line, -, -, rfl⟩ | ⟨-, rfl⟩ | ⟨miso, u, -, -, rfl⟩ | ⟨-, rfl⟩ |
    ⟨level, pin, rfl⟩
  · rw [holdInReset_low _ (by simpa using low)]; exact .inl ⟨.inl rfl, by simp⟩
  · exact .inl ⟨.inr (by simp), by simp⟩
  · rw [holdInReset_low _ low']; exact .inl ⟨.inl rfl, by simp⟩
  · rw [holdInReset_low _ low']; exact .inl ⟨.inl rfl, by simp⟩
  · rw [holdInReset_low _ low']; exact .inl ⟨.inl rfl, by simp⟩
  · cases level with
    | false => exact .inr ⟨pin, rfl, by simp [driveReset, resetTrace]⟩
    | true => exact .inl ⟨.inr (by simp [driveReset]), by simp [driveReset]⟩

/-- Settles O31: a step under a low reset pin leaves the trace alone, and a further fall of the pin finds select high. -/
theorem resetValuesHoldWhileAsserted : Obligations.ResetValuesHoldWhileAsserted := by
  intro s t low atReset h
  rcases step_low low h with ⟨block, trace⟩ | ⟨-, block, trace⟩
  · exact ⟨block.elim id (·.trans atReset), trace⟩
  · exact ⟨block, trace.trans (resetTrace_closed (by rw [atReset]; rfl))⟩

/-- No host operation drives the reset pin. -/
theorem exec_rstN {i : Instr} {s t : State} (h : exec i s = .next t) : t.rstN = s.rstN := by
  rcases exec_cases i s with ⟨op, a, v, d, -, x⟩ | ⟨clr, g, -, x⟩ | ⟨g, -, x⟩ | ⟨w, -, x⟩ | ⟨-, x⟩ <;>
    (rw [x] at h; obtain rfl := Host.Outcome.next.inj h)
  · rcases cmdWrite_cases op a v d s with ⟨-, x⟩ | ⟨-, -, x⟩ | ⟨-, -, -, x⟩ | ⟨-, -, -, x⟩ <;> simp [x]
  · rcases initRequest_cases (if clr then clearErrors s else s) with ⟨-, x⟩ | ⟨-, x⟩ <;> cases clr <;> simp_all
  · simp
  · simp
  · rfl

theorem sequencerStep_rstN (s : State) : (sequencerStep s).rstN = s.rstN := by
  rcases sequencerStep_cases s with ⟨-, x⟩ | ⟨-, x⟩ | ⟨-, x⟩ | ⟨-, x⟩ | ⟨-, x⟩ <;> simp [x]

theorem settleStep_rstN (s : State) : (settleStep s).rstN = s.rstN := by
  rcases settleStep_cases s with ⟨-, x⟩ | ⟨-, x⟩ <;> simp [x]

theorem transportStep_rstN {miso : Byte} {s t : State} (h : transportStep miso s = .next t) : t.rstN = s.rstN := by
  rcases transportStep_cases h with ⟨-, rfl⟩ | ⟨-, tx, -, rfl⟩ <;> simp

@[simp] theorem holdInReset_rstN (s t : State) : (holdInReset s t).rstN = t.rstN := by
  unfold holdInReset; split <;> rfl

/-- The reset pin moves by its own turn alone (R114, R115). -/
theorem step_rstN {s t : State} (h : step s = .next t) :
    t.rstN = s.rstN ∨ ∃ level, nextTurn s = .resetPin level ∧ t = driveReset level (takeTurn s) := by
  rcases step_cases h with ⟨i, line, u, -, -, x, rfl⟩ | ⟨m, line, -, -, rfl⟩ | ⟨-, rfl⟩ | ⟨miso, u, -, x, rfl⟩ | ⟨-, rfl⟩ | pin
  · exact .inl (by simp [exec_rstN x])
  · exact .inl (by simp)
  · exact .inl (by simp [sequencerStep_rstN])
  · exact .inl (by simp [transportStep_rstN x])
  · exact .inl (by simp [settleStep_rstN])
  · exact .inr pin

/-- After a step that leaves the reset pin low, the block is at its reset values (R114; log entry 8). -/
theorem step_low_after {s t : State} (hr : s.rstN = false → s.block = Block.reset) (h : step s = .next t)
    (low : t.rstN = false) : t.block = Block.reset := by
  rcases step_rstN h with same | ⟨level, -, rfl⟩
  · have before : s.rstN = false := same ▸ low
    exact (resetValuesHoldWhileAsserted s t before (hr before) h).1
  · cases level with
    | false => rfl
    | true => simp [driveReset] at low

end Sys2Proof.Machine
end

section
/-! SUPPORT. The invariant holds at reset and along every move (R20 to R29, R54, R68, R71). -/

namespace Sys2Proof.Machine

/-- Each of the ways in which a step can move the block keeps the block's invariant. -/
theorem Moves.keeps_block {s t : State} (m : Moves s t) (h : s.block.Inv) : t.block.Inv := by
  cases m with
  | quiet b _ => rwa [b]
  | rejected i kind clr _ _ _ b _ => rw [b]; exact h.rejected clr kind
  | accepted i op a v d _ _ p ready ok b _ => rw [b]; exact h.accept a v d p ready ok
  | initAccepted clr g _ p b _ =>
    rw [b]
    exact (h.of_clearErrs_eq (Block.clearErrs_ite clr _)).acceptInit (by cases clr <;> simpa using p)
  | errorsCleared g _ b _ => rw [b]; exact (Block.inv_clearErrs_iff _).mpr h
  | linesSet _ p b _ => rw [b]; exact h.initLines p
  | transportSet _ p b _ => rw [b]; exact h.initXport p
  | asserted _ p b _ => rw [b]; exact h.assert p
  | deasserted _ p b _ => rw [b]; exact h.deassert p
  | completed rx tx _ p _ b _ => rw [b]; exact h.complete p rx
  | settled _ p b _ => rw [b]; exact h.endSettle p
  | wasReset _ b _ => rw [b]; exact .reset

/-- Each of the ways in which a step can move the machine keeps the trace fitting the block (R68). -/
theorem Moves.keeps_trace {s t : State} (m : Moves s t) (h : s.block.Inv) (fits : traceFits s.block s.trace) :
    traceFits t.block t.trace := by
  have line {p : Phase} (at_p : s.block.phase = p) : s.block.csN = !p.selected := at_p ▸ h.select
  cases m with
  | quiet b e => rwa [b, e]
  | rejected i kind clr _ _ _ b e =>
    rw [b, e, traceFits_reject]
    exact traceFits_of_clearErrs_eq fits (by rw [Block.clearErrs_setErr, Block.clearErrs_ite])
  | accepted i op a v d _ _ p _ _ b e => rw [b, e]; exact traceFits_of_select_high fits (line p) (line p)
  | initAccepted clr g _ p b e =>
    rw [b, e]; exact traceFits_of_select_high fits (line p) (by cases clr <;> exact line p)
  | errorsCleared g _ b e => rw [b, e]; exact traceFits_of_clearErrs_eq fits rfl
  | linesSet _ p b e => rw [b, e]; exact traceFits_of_select_high fits (line p) rfl
  | transportSet _ p b e => rw [b, e]; exact traceFits_of_select_high fits (line p) (line p)
  | asserted _ p b e => rw [b, e]; exact traceFits_assert fits (line p)
  | deasserted _ p b e => rw [b, e]; exact (traceFits_closed rfl _).mpr (scanTrace_csHigh fits (line p))
  | completed rx tx _ p byte b e => rw [b, e]; exact traceFits_complete rx fits (line p) byte (h.next_index p)
  | settled _ p b e => rw [b, e]; exact traceFits_of_select_high fits (line p) (line p)
  | wasReset _ b e => rw [b, e]; exact traceFits_reset fits

/-- Settles O33: every step is one of the moves, and each move keeps the block's invariant and the fit of the trace. -/
theorem invariantKeptByEveryStep : Obligations.InvariantKeptByEveryStep := by
  intro s t inv h
  have moved := step_moves inv.reset h
  exact ⟨moved.keeps_block inv.block, moved.keeps_trace inv.block inv.trace, step_low_after inv.reset h⟩

/-- Settles O32: the reset values have the block's invariant, and the empty trace is closed. -/
theorem invariantHoldsAtReset : Obligations.InvariantHoldsAtReset :=
  ⟨.reset, rfl, fun _ => rfl⟩

end Sys2Proof.Machine
end

section
/-! SUPPORT. Each field of the block moves by its own rules alone: read off the moves of a step, field by field
(R16, R19 to R25). -/

namespace Sys2Proof.Machine

/-! ## The phase -/

/-- Settles O36: each move is one edge of R20 or leaves the phase alone. -/
theorem phaseMovesOnlyByItsEdges : Obligations.PhaseMovesOnlyByItsEdges := by
  refine ⟨fun s => by rw [statusWord_bit]; rfl, fun s t hr h => ?_⟩
  cases step_moves hr h with
  | quiet b _ => exact .inl (by rw [b])
  | rejected i kind clr _ _ _ b _ => exact .inl (by simp [b, apply_ite Block.phase])
  | errorsCleared g _ b _ => exact .inl (by simp [b])
  | accepted i op a v d hi hf p _ _ b _ => simp [b, p, hi, hf]
  | initAccepted clr g hi p b _ => simp [b, p, hi]
  | linesSet hn p b _ => simp [b, p, hn]
  | transportSet hn p b _ => simp [b, p, hn]
  | asserted hn p b _ => simp [b, p, hn]
  | deasserted hn p b _ => by_cases c : s.block.op = 0xC0#8 <;> simp [b, p, hn, c]
  | completed rx tx hn p _ b _ => by_cases last : s.block.k.toNat + 1 = s.block.frame.length <;> simp [b, p, hn, last]
  | settled hn p b _ => simp [b, p, hn]
  | wasReset hn b _ => simp [b, hn, Block.reset]

/-! ## The error flags -/

/-- The sticky flag of a kind of rejection (R24). -/
def ErrKind.flag : ErrKind → Block → Bool
  | .busy => Block.errBusy
  | .notReady => Block.errNotReady
  | .badOp => Block.errBadOp

/-- The pairs the spec lists are the kinds with their flags. -/
theorem ErrKind.eq_flag_of_mem {flag : Block → Bool} {kind : ErrKind}
    (h : (flag, kind) ∈ [(Block.errBusy, ErrKind.busy), (Block.errNotReady, ErrKind.notReady),
      (Block.errBadOp, ErrKind.badOp)]) : flag = kind.flag := by
  simp only [List.mem_cons, Prod.mk.injEq, List.not_mem_nil, or_false] at h
  obtain ⟨rfl, rfl⟩ | ⟨rfl, rfl⟩ | ⟨rfl, rfl⟩ := h <;> rfl

@[simp] theorem flag_setErr (kind raised : ErrKind) (b : Block) :
    kind.flag (b.setErr raised) = (kind.flag b || decide (raised = kind)) := by
  cases kind <;> simp [ErrKind.flag]

@[simp] theorem flag_clearErrs (kind : ErrKind) (b : Block) : kind.flag b.clearErrs = false := by cases kind <;> rfl
@[simp] theorem flag_reset (kind : ErrKind) : kind.flag Block.reset = false := by cases kind <;> rfl

@[simp] theorem flag_accept (kind : ErrKind) (op a v d : Byte) (b : Block) :
    kind.flag (b.accept op a v d) = kind.flag b := by cases kind <;> rfl
@[simp] theorem flag_acceptInit (kind : ErrKind) (b : Block) : kind.flag b.acceptInit = kind.flag b := by
  cases kind <;> rfl
@[simp] theorem flag_initLines (kind : ErrKind) (b : Block) : kind.flag b.initLines = kind.flag b := by
  cases kind <;> rfl
@[simp] theorem flag_initXport (kind : ErrKind) (b : Block) : kind.flag b.initXport = kind.flag b := by
  cases kind <;> rfl
@[simp] theorem flag_assert (kind : ErrKind) (b : Block) : kind.flag b.assert = kind.flag b := by
  cases kind <;> rfl
@[simp] theorem flag_deassert (kind : ErrKind) (b : Block) : kind.flag b.deassert = kind.flag b := by
  cases kind <;> rfl
@[simp] theorem flag_complete (kind : ErrKind) (rx : Byte) (b : Block) :
    kind.flag (b.complete rx) = kind.flag b := by cases kind <;> rfl
@[simp] theorem flag_drive (kind : ErrKind) (p : Pins) (b : Block) : kind.flag (b.drive p) = kind.flag b := by
  cases kind <;> rfl
@[simp] theorem flag_endSettle (kind : ErrKind) (b : Block) : kind.flag b.endSettle = kind.flag b := by
  cases kind <;> rfl

/-- Settles O37: only a rejection, a clearing CTRL write and block reset touch the flags, and only a rejection records one. -/
theorem stickyFlagsMoveOnlyByRule : Obligations.StickyFlagsMoveOnlyByRule := by
  intro flag kind member s t hr h
  obtain rfl := ErrKind.eq_flag_of_mem member
  cases step_moves hr h with
  | rejected i raised clr hi _ clears b e =>
    refine ⟨fun off on => ⟨⟨i, hi⟩, ?_⟩, fun recorded => ?_, fun on off => .inl ⟨i, hi, clears ?_⟩⟩
    · have same : raised = kind := by cases clr <;> simpa [b, off] using on
      rw [e, same]
    · have same : raised = kind := by simpa [e] using recorded
      simp [b, same]
    · cases clr with
      | true => rfl
      | false => simp [b, on] at off
  | initAccepted clr g hi _ b e => cases clr <;> simp_all [clearsErrors]
  | errorsCleared g hi b e => simp [b, e, hi, clearsErrors]
  | wasReset hn b e => simp [b, e, hn, resetTrace_ne_reject]
  | _ => rename_i b e; simp +contextual [b, e]

/-! ## READY, RVALID and RESULT -/

/-- Settles O38: of all moves three touch READY: the end of SETTLE, an accepted INIT, and block reset. -/
theorem readyMovesOnlyByRule : Obligations.ReadyMovesOnlyByRule := by
  intro s t hr h
  cases step_moves hr h with
  | settled hn p b _ => simp +contextual [b, p, hn]
  | initAccepted clr g hi p b _ => simp [b, p, hi]
  | wasReset hn b _ => simp [b, hn, Block.reset]
  | _ => rename_i b _; simp +contextual [b, apply_ite Block.ready]

/-- Settles O39: of all moves DEASSERT and block reset alone touch RESULT. -/
theorem resultWrittenOnlyByCapture : Obligations.ResultWrittenOnlyByCapture := by
  intro s t hr h changed
  cases step_moves hr h with
  | deasserted hn p b _ =>
    have captures : (capIdx s.block.op).isSome = true := by
      by_contra none
      simp [b, none] at changed
    simp [b, p, hn, captures]
  | wasReset hn _ _ => exact .inr hn
  | _ => rename_i b _; simp [b, apply_ite Block.result] at changed

/-- Settles O40: DEASSERT sets RVALID where it captures; the two acceptances and block reset clear it. -/
theorem rvalidMovesOnlyByRule : Obligations.RvalidMovesOnlyByRule := by
  intro s t hr h
  cases step_moves hr h with
  | deasserted hn p b _ => cases c : (capIdx s.block.op).isSome <;> simp +contextual [b, p, hn, c]
  | accepted i op a v d hi _ p _ _ b _ => simp [b, p, hi]
  | initAccepted clr g hi p b _ => simp [b, p, hi]
  | wasReset hn b _ => simp [b, hn, Block.reset]
  | _ => rename_i b _; simp +contextual [b, apply_ite Block.rvalid]

/-! ## The latch, the index and the capture register -/

/-- Settles O41: an accepted CMD write loads the latch with its own fields, INIT_XPORT the opcode of the Reset frame. -/
theorem latchWrittenOnlyByRule : Obligations.LatchWrittenOnlyByRule := by
  intro s t hr h
  cases step_moves hr h with
  | accepted i op a v d hi hf p _ _ b _ => exact .inr (.inl ⟨p, by simp [b], i, hi, by simp [b, hf]⟩)
  | transportSet hn p b _ => exact .inr (.inr (.inl (by simp [b, p, hn])))
  | wasReset hn _ _ => exact .inr (.inr (.inr hn))
  | _ =>
    rename_i b _
    exact .inl (by simp [b, apply_ite Block.op, apply_ite Block.addr, apply_ite Block.arg0, apply_ite Block.arg1])

/-- Settles O42: ASSERT clears the index, a completion counts it up and captures at the capture index, block reset does both. -/
theorem indexAndCaptureMoveOnlyByRule : Obligations.IndexAndCaptureMoveOnlyByRule := by
  intro s t hr h
  cases step_moves hr h with
  | asserted hn p b _ => simp [b, p, hn]
  | completed rx tx hn p _ b _ =>
    by_cases captures : capIdx s.block.op = some s.block.k.toNat <;> simp [b, p, hn, captures]
  | wasReset hn _ _ => simp [hn]
  | _ => rename_i b _; simp [b, apply_ite Block.k, apply_ite Block.cap]

/-! ## The transport -/

/-- Settles O43: INIT_XPORT and block reset alone touch the enable, and the invariant holds the implication. -/
theorem transportEnabledOnlyByInit : Obligations.TransportEnabledOnlyByInit := by
  refine ⟨fun s t hr h => ?_, fun s inv on => ?_⟩
  · cases step_moves hr h with
    | transportSet hn p b _ => simp [b, p, hn]
    | wasReset hn b _ => simp [b, hn, Block.reset]
    | _ => rename_i b _; simp +contextual [b, apply_ite Block.xportEn]
  · exact on.elim inv.block.readyXport fun p => inv.block.frameXport (by rw [p]; rfl)

/-! ## The trace -/

/-- Settles O45: while the reset pin is low nothing but its fall records an event; while it is high each move records its own. -/
theorem traceGrowsByItsOwnSteps : Obligations.TraceGrowsByItsOwnSteps := by
  intro s t h
  cases pin : s.rstN with
  | false =>
    rcases step_low pin h with ⟨-, e⟩ | ⟨hn, -, e⟩
    · exact .inl e
    · rcases resetTrace_cases s with ⟨c, r⟩ | ⟨c, r⟩ <;> simp [e, r, hn, c]
  | true =>
    cases step_moves (by simp [pin]) h with
    | asserted hn p _ e => simp [e, hn, p]
    | completed rx tx hn p byte _ e => exact .inr (.inr (.inl ⟨tx, rx, e, hn, p, byte⟩))
    | deasserted hn p _ e => simp [e, hn, p]
    | rejected i kind _ hi _ _ _ e => simp [e, hi]
    | wasReset hn _ e => rcases resetTrace_cases s with ⟨c, r⟩ | ⟨c, r⟩ <;> simp [e, r, hn, c]
    | _ => rename_i e; exact .inl e

end Sys2Proof.Machine
end

section
/-! SUPPORT. What a turn that is on the agenda does, and what the reset gives (R10, R29, R40, R86, R114, R115). -/

namespace Sys2Proof.Machine

/-- PEND as the host keeps it: 1 exactly when the pin is driven low (R59, R86). -/
theorem pendingWord_eq (s : State) : pendingWord s = if s.intLine = .low then 0x00000001#32 else 0x00000000#32 := by
  rw [pendingWord, statusWord_bit]
  cases line : s.intLine <;> simp [pend_eq, line]

/-- Settles O20: the poll is a read of PEND. -/
theorem pendingPollFollowsTheLine : Obligations.PendingPollFollowsTheLine :=
  fun s => pendingWord_eq s ▸ rfl

/-- A table number that decodes does so through its request (log entry 4). -/
theorem decode_of_decodeTableWord {nbits w : Nat} {i : Instr} (h : decodeTableWord nbits w = some i) :
    decode (tableRequest nbits w) = .ok i := by
  unfold decodeTableWord at h
  split at h
  · next j ok => rw [ok, Option.some.inj h]
  · cases h

/-- Settles O9: `withFetchWord` places a host turn on the agenda, and a host turn that decodes runs its operation. -/
theorem stepRunsDecodedOperation : Obligations.StepRunsDecodedOperation :=
  ⟨fun _ _ _ _ _ high onAgenda decodes => step_host high onAgenda decodes,
    fun s nbits w _ h => step_host (s := placeRequest (tableRequest nbits w) s) rfl rfl (decode_of_decodeTableWord h)⟩

/-- The sequencer has no step in IDLE, XFER and SETTLE (R20). -/
theorem sequencerStep_disabled {s : State}
    (p : s.block.phase = .idle ∨ s.block.phase = .xfer ∨ s.block.phase = .settle) : sequencerStep s = s := by
  rcases p with p | p | p <;> simp [sequencerStep, p]

/-- Settles O28: the turn is taken from the agenda, and the agent's step is the identity. -/
theorem disabledAgentChangesNothing : Obligations.DisabledAgentChangesNothing := by
  intro s rest high
  refine ⟨fun onAgenda p => ?_, fun rx onAgenda p => ?_, fun onAgenda p => ?_⟩
  · rw [step_sequencer high onAgenda, sequencerStep_disabled (by exact p)]
  · rw [step_cons onAgenda, runTurn, transportStep, if_neg (by exact p)]
    exact held_high _ high
  · rw [step_settleTimer high onAgenda, settleStep, if_neg (by exact p)]

/-- Settles O29: the state after reset is read off, and STATUS with it for each drive of the pin. -/
theorem resetValuesOfTheSpec : Obligations.ResetValuesOfTheSpec := by
  refine ⟨rfl, rfl, rfl, rfl, rfl, rfl, rfl, rfl, rfl, rfl, rfl, rfl, rfl, rfl, rfl, rfl, rfl, rfl, rfl, rfl, rfl, rfl, ?_⟩
  rintro line s rfl
  cases line <;> decide

/-- Settles O30: both turns drive the pin, and its fall puts the block at its reset values. -/
theorem blockResetFromAnyState : Obligations.BlockResetFromAnyState :=
  fun _ _ => ⟨fun fall => step_cons fall, fun rise => step_cons rise⟩

end Sys2Proof.Machine
end

section
/-! SUPPORT. The host port and the bus (20_memory.md): what a host access is refused for, what it leaves alone, how a byte
crosses the bus, and the reference peripheral (R33 to R37, R45, R61). -/

namespace Sys2Proof.Machine

/-! ## Refused accesses -/

/-- Settles O10: such an access has no decoding, for its width or for want of a register at its offset. -/
theorem stepRefusesNarrowAndMisaligned : Obligations.StepRefusesNarrowAndMisaligned := by
  intro s a line rest onAgenda
  rw [step_cons onAgenda]
  refine ⟨fun narrow => ?_, fun wide misaligned => ?_⟩
  · simp [runTurn, hostStep, decode, decodeAccess, narrow, refusalOf]
  · have noReg := (windowReg_eq_none_iff a.offset).mpr misaligned
    simp [runTurn, hostStep, decode, decodeAccess, wide, noReg, refusalOf]

/-! ## One exchange -/

/-- With `sck` low before it, the pulse that carries one bit is one rising edge, and `mosi` stands at the bit there (R61). -/
theorem risingEdges_pulse {before : Pins} (low : before.sck = false) (bit : Bool) (rest : List Pins) :
    risingEdges before (⟨false, bit⟩ :: ⟨true, bit⟩ :: ⟨false, bit⟩ :: rest) = bit :: risingEdges ⟨false, bit⟩ rest := by
  simp [risingEdges, low]

/-- The samples of an exchange are the bits of the byte sent, most significant first (R61). -/
theorem risingEdges_exchange (tx miso : Byte) : risingEdges ⟨false, false⟩ (exchange tx miso).wave =
    [7, 6, 5, 4, 3, 2, 1, 0].map tx.getLsbD := by
  simp only [exchange, shiftBits, shiftBit, List.nil_append, List.cons_append]
  iterate 8 rw [risingEdges_pulse rfl]
  rfl

/-- The receiver's assembly is the block's own: it is what the block receives when the other side sends those bits (R34). -/
theorem assembleMsbFirst_bits (b : Byte) : assembleMsbFirst ([7, 6, 5, 4, 3, 2, 1, 0].map b.getLsbD) = b :=
  exchange_rx 0x00#8 b

/-- Settles O8: the samples are the bits of the byte, and both ends assemble them in the same way. -/
theorem exchangeIsMostSignificantBitFirst : Obligations.ExchangeIsMostSignificantBitFirst := by
  intro tx miso
  rw [risingEdges_exchange]
  exact ⟨rfl, assembleMsbFirst_bits tx, exchange_rx tx miso, exchange_lastPins tx miso⟩

/-! ## What a host operation leaves alone -/

/-- Settles O22: a host operation rejects, latches, clears the error flags, answers, or does nothing. -/
theorem hostOperationsLeaveTheBusAlone : Obligations.HostOperationsLeaveTheBusAlone := by
  intro i s t h
  rcases exec_cases i s with ⟨op, a, v, d, fields, x⟩ | ⟨clr, g, rfl, x⟩ | ⟨g, rfl, x⟩ | ⟨w, isRead, x⟩ | ⟨isWrite, x⟩ <;>
    (rw [x] at h; obtain rfl := Host.Outcome.next.inj h)
  · have isWrite := dir_of_cmdFields fields
    rcases cmdWrite_cases op a v d s with ⟨-, x⟩ | ⟨-, -, x⟩ | ⟨-, -, -, x⟩ | ⟨-, -, -, x⟩ <;> simp [x, isWrite]
  · have isWrite : (encode (.init clr g)).busAccess.dir = .write := rfl
    rcases initRequest_cases (if clr then clearErrors s else s) with ⟨-, x⟩ | ⟨-, x⟩ <;> cases clr <;> simp_all
  · have isWrite : (encode (.clrErr g)).busAccess.dir = .write := rfl
    simp [isWrite]
  · simp [isRead]
  · simp [isWrite]

/-- Blocks that agree once their error flags are cleared differ in those flags alone (R24). -/
theorem Block.eq_with_flags_of_clearErrs_eq {b c : Block} (h : c.clearErrs = b.clearErrs) :
    c = { b with errBusy := c.errBusy, errNotReady := c.errNotReady, errBadOp := c.errBadOp } :=
  congrArg (fun x : Block => { x with errBusy := c.errBusy, errNotReady := c.errNotReady, errBadOp := c.errBadOp }) h

/-- Settles O51: outside IDLE a host turn is quiet, is rejected, or clears the error flags. -/
theorem hostCannotDisturbAFrame : Obligations.HostCannotDisturbAFrame := by
  intro s t high busy host h
  suffices frame : t.block.clearErrs = s.block.clearErrs ∧ busEvents t.trace = busEvents s.trace from
    ⟨Block.eq_with_flags_of_clearErrs_eq frame.1, frame.2⟩
  cases step_moves (by simp [high]) h with
  | quiet b e => simp [b, e]
  | rejected i kind clr _ _ _ b e => simp [b, e, Block.clearErrs_setErr, Block.clearErrs_ite]
  | errorsCleared g _ b e => exact ⟨by rw [b]; rfl, by rw [e]⟩
  | accepted i op a v d _ _ idle => exact absurd idle busy
  | initAccepted clr g _ idle => exact absurd idle busy
  | linesSet hn | transportSet hn | asserted hn | deasserted hn | completed _ _ hn | settled hn | wasReset hn =>
    simp [hn, agentOf] at host

/-! ## The reference peripheral -/

theorem RefPeripheral.reg_setReg_same (p : RefPeripheral) (a v : Byte) : (p.setReg a v).reg a = v := by
  simp [reg, setReg]

theorem RefPeripheral.reg_setReg_ne (p : RefPeripheral) {a b : Byte} (v : Byte) (other : b ≠ a) :
    (p.setReg a v).reg b = p.reg b := by
  have apart : a.toNat ≠ b.toNat := fun e => other (BitVec.eq_of_toNat_eq e.symm)
  simp [reg, setReg, apart]

/-- The bit-modify law, bit by bit (R37). -/
theorem bitModified_getLsbD (old mask data : Byte) (n : Nat) :
    (bitModified old mask data).getLsbD n = if mask.getLsbD n then data.getLsbD n else old.getLsbD n := by
  by_cases inByte : n < 8
  · simp only [bitModified, BitVec.getLsbD_or, BitVec.getLsbD_and, BitVec.getLsbD_not, inByte]
    cases mask.getLsbD n <;> simp
  · simp [BitVec.getLsbD_of_ge _ n (Nat.le_of_not_lt inByte)]

/-- Settles O54: on those frames the peripheral is one register write, or one register read. -/
theorem referencePeripheralBitModify : Obligations.ReferencePeripheralBitModify := by
  intro p a mask data
  have modify : p.after (frame 0x05#8 a mask data) = p.setReg a (bitModified (p.reg a) mask data) := rfl
  have write : p.after (frame 0x02#8 a data 0x00#8) = p.setReg a data := rfl
  rw [modify, write]
  exact ⟨fun n => by rw [p.reg_setReg_same, bitModified_getLsbD], fun b other => p.reg_setReg_ne _ other,
    p.reg_setReg_same a data, fun b other => p.reg_setReg_ne _ other, rfl⟩

end Sys2Proof.Machine
end

section
/-! SUPPORT. From busy to idle: the block's own turns count down to the completion point (R42, R43, R73, R126). -/

namespace Sys2Proof.Machine

/-- Settles O52: BUSY is the phase, and each part is a clause of the invariant read in IDLE. -/
theorem idleIsTheCompletionPoint : Obligations.IdleIsTheCompletionPoint := by
  intro s inv notBusy
  have idle : s.block.phase = .idle := by
    rw [statusWord_bit] at notBusy
    simpa [busy] using notBusy
  have selectHigh : s.block.csN = true := by rw [inv.block.select, idle]; rfl
  refine ⟨selectHigh, (traceFits_closed selectHigh _).mp inv.trace, ?_, ?_⟩
  · have notRunning : s.block.settle ≠ .running := by simp [inv.block.timer, idle]
    cases timer : s.block.settle with
    | stopped => rfl
    | running => exact absurd timer notRunning
  · exact Bool.eq_false_iff.mpr fun inInit => (inv.block.initReady inInit).2 idle

/-! ## The count of turns left -/

/-- The turns from DEASSERT to IDLE: a Reset frame goes by way of SETTLE (R66, R75). -/
def closingTurns (op : Byte) : Nat := if op = 0xC0#8 then 2 else 1

/-- The turns of the block's own agents that are left before IDLE. In the two INIT phases the frame to come is the Reset
frame, of one byte (R95). -/
def Block.turnsLeft (b : Block) : Nat :=
  match b.phase with
  | .idle      => 0
  | .settle    => 1
  | .deassert  => closingTurns b.op
  | .xfer      => b.frame.length - b.k.toNat + closingTurns b.op
  | .assert    => 1 + b.frame.length + closingTurns b.op
  | .initXport => 5
  | .initLines => 6

/-- The turn of the agent that is enabled outside IDLE (R10); the reply of an exchange is free, and is the filler here. -/
def ownTurn : Phase → Turn
  | .xfer => .transport Config.filler
  | .settle => .settleTimer
  | .idle => .sequencer
  | .initLines => .sequencer
  | .initXport => .sequencer
  | .assert => .sequencer
  | .deassert => .sequencer

/-- The block's own agents are neither the host nor the reset pin. -/
theorem agentOf_ownTurn (p : Phase) : agentOf (ownTurn p) ≠ .host ∧ agentOf (ownTurn p) ≠ .resetPin := by
  cases p <;> decide

/-- The longest frame that does not settle, and INIT, take six turns (R54). -/
theorem Block.turnsLeft_le (b : Block) : b.turnsLeft ≤ 6 := by
  have frameAndClosing : b.frame.length + closingTurns b.op ≤ 5 := by
    by_cases isReset : b.op = 0xC0#8
    · simp [Block.frame, Machine.frame, closingTurns, isReset]
    · have short : b.frame.length ≤ 4 := frame_length_le _ _ _ _
      simp only [closingTurns, isReset, if_false]
      omega
  cases p : b.phase <;> simp only [turnsLeft, p] <;> omega

/-- With no turn left the block is idle. -/
theorem Block.idle_of_turnsLeft_eq_zero {b : Block} (h : b.turnsLeft = 0) : b.phase = .idle := by
  have closing : closingTurns b.op ≠ 0 := by unfold closingTurns; split <;> simp
  cases p : b.phase <;> simp [turnsLeft, p, closing] at h ⊢

/-! ## Each own turn takes one off the count -/

/-- DEASSERT leaves the settle wait or nothing (R66). -/
theorem Block.turnsLeft_deassert {b : Block} (p : b.phase = .deassert) : b.turnsLeft = b.deassert.turnsLeft + 1 := by
  by_cases isReset : b.op = 0xC0#8 <;> simp [turnsLeft, p, closingTurns, isReset]

/-- A completion leaves one exchange less (R67). -/
theorem Block.turnsLeft_complete {b : Block} (h : b.Inv) (p : b.phase = .xfer) (rx : Byte) :
    b.turnsLeft = ((b.complete rx).drive ⟨false, false⟩).turnsLeft + 1 := by
  have inFrame := h.index p
  have next := h.next_index p
  have sameFrame : ((b.complete rx).drive ⟨false, false⟩).frame = b.frame := rfl
  by_cases last : b.k.toNat + 1 = b.frame.length
  · simp [turnsLeft, p, last]
    omega
  · simp [turnsLeft, p, last, sameFrame, next]
    omega

/-- The sequencer's step, in a phase in which it is enabled. -/
theorem turnsLeft_sequencerStep {s : State} (busy : s.block.phase ≠ .idle) (exchanging : s.block.phase ≠ .xfer)
    (settling : s.block.phase ≠ .settle) : s.block.turnsLeft = (sequencerStep s).block.turnsLeft + 1 := by
  rcases sequencerStep_cases s with ⟨p, x⟩ | ⟨p, x⟩ | ⟨p, x⟩ | ⟨p, x⟩ | ⟨p | p | p, -⟩
  · simp [x, Block.turnsLeft, p]
  · simp [x, Block.turnsLeft, p, Block.frame, frame, closingTurns]
  · have sameFrame : s.block.assert.frame = s.block.frame := rfl
    simp [x, Block.turnsLeft, p, sameFrame]
    omega
  · rw [x]
    exact Block.turnsLeft_deassert p
  · exact absurd p busy
  · exact absurd p exchanging
  · exact absurd p settling

/-- The sequencer does not look at the agenda (R10). -/
theorem sequencerStep_agenda (s : State) (rest : List Turn) :
    sequencerStep { s with agenda := rest } = { sequencerStep s with agenda := rest } := by
  cases p : s.block.phase <;> simp [sequencerStep, p] <;> rfl

/-- Outside IDLE the enabled agent's turn, whatever comes after it, takes one off the count (R43, R126). -/
theorem step_ownTurn {s : State} (inv : s.block.Inv) (high : s.rstN = true) (busy : s.block.phase ≠ .idle) :
    ∃ u : State, (∀ rest, step { s with agenda := ownTurn s.block.phase :: rest } = .next { u with agenda := rest }) ∧
      u.rstN = true ∧ s.block.turnsLeft = u.block.turnsLeft + 1 := by
  by_cases exchanging : s.block.phase = .xfer
  · obtain ⟨tx, byte⟩ : ∃ tx, s.block.frame[s.block.k.toNat]? = some tx :=
      ⟨_, List.getElem?_eq_getElem (inv.index exchanging)⟩
    refine ⟨{ s with
        block := (s.block.complete Config.filler).drive ⟨false, false⟩
        trace := s.trace ++ [.xchg tx Config.filler] }, fun rest => ?_, high, Block.turnsLeft_complete inv exchanging _⟩
    exact step_transport high (by rw [exchanging]; rfl) exchanging byte
  by_cases settling : s.block.phase = .settle
  · refine ⟨onBlock Block.endSettle s, fun rest => ?_, high, by simp [Block.turnsLeft, settling]⟩
    refine Eq.trans (step_settleTimer high (by rw [settling]; rfl)) ?_
    rw [settleStep, if_pos (by exact settling)]
    rfl
  · refine ⟨sequencerStep s, fun rest => ?_, by rw [sequencerStep_rstN, high],
      turnsLeft_sequencerStep busy exchanging settling⟩
    have own : ownTurn s.block.phase = .sequencer := by cases p : s.block.phase <;> simp_all [ownTurn]
    rw [own, ← sequencerStep_agenda]
    exact step_sequencer high rfl

/-- The invariant says nothing about the turns to come (R10). -/
theorem State.inv_agenda_iff (s : State) (turns : List Turn) : State.Inv { s with agenda := turns } ↔ s.Inv :=
  ⟨fun h => ⟨h.block, h.trace, h.reset⟩, fun h => ⟨h.block, h.trace, h.reset⟩⟩

/-- As many own turns as are left lead to IDLE, whatever comes after them (R43). -/
theorem runFor_ownTurns (n : Nat) {s : State} (inv : s.Inv) (high : s.rstN = true) (left : s.block.turnsLeft = n) :
    ∃ turns : List Turn, turns.length = n ∧ (∀ u ∈ turns, agentOf u ≠ .host ∧ agentOf u ≠ .resetPin) ∧
      ∀ rest, ∃ t, runFor n { s with agenda := turns ++ rest } = .next t ∧ t.block.phase = .idle := by
  induction n generalizing s with
  | zero => exact ⟨[], rfl, by simp, fun rest => ⟨_, rfl, Block.idle_of_turnsLeft_eq_zero left⟩⟩
  | succ n ih =>
    have busy : s.block.phase ≠ .idle := fun idle => by simp [Block.turnsLeft, idle] at left
    obtain ⟨u, steps, highAfter, counts⟩ := step_ownTurn inv.block high busy
    have invAfter : u.Inv :=
      (State.inv_agenda_iff u _).mp (invariantKeptByEveryStep _ _ ((State.inv_agenda_iff s _).mpr inv) (steps []))
    obtain ⟨turns, length, own, arrives⟩ := ih invAfter highAfter (by omega)
    refine ⟨ownTurn s.block.phase :: turns, by simp [length], ?_, fun rest => ?_⟩
    · exact List.forall_mem_cons.mpr ⟨agentOf_ownTurn _, own⟩
    · rw [List.cons_append, runFor_succ n (steps _)]
      exact arrives rest

/-- Settles O53: the count of turns left never exceeds six. -/
theorem busyEndsWithinSixTurns : Obligations.BusyEndsWithinSixTurns := by
  intro s inv high
  obtain ⟨turns, length, own, arrives⟩ := runFor_ownTurns _ inv high rfl
  exact ⟨turns, length ▸ s.block.turnsLeft_le, own, length ▸ arrives⟩

end Sys2Proof.Machine
end

section
/-! SUPPORT. The host operation encoding (30_encoding.md): the register at an offset, the rows of the CMD and CTRL words, and
both round trips between operations and bus accesses (R46 to R58). -/

namespace Sys2Proof

open Machine (cmdFields)

/-! ## The window -/

/-- The byte offset of a register of the window (R31). -/
def WindowReg.offset : WindowReg → BitVec 4
  | .cmd    => 0x0#4
  | .status => 0x4#4
  | .result => 0x8#4
  | .ctrl   => 0xC#4

@[simp] theorem windowReg_offset (reg : WindowReg) : windowReg reg.offset = some reg := by cases reg <;> rfl

/-- A register stands at its own offset and at no other (R31). -/
theorem offset_of_windowReg {off : BitVec 4} {reg : WindowReg} (h : windowReg off = some reg) : off = reg.offset := by
  unfold windowReg at h
  split_ifs at h <;> cases h <;> assumption

/-- A 32-bit access at the offset of a register is decoded by its direction and that register (R49). -/
theorem decode_of_windowReg {a : HostAccess} {reg : WindowReg} (wide : a.width = .w32)
    (there : windowReg a.offset = some reg) : decode (.access a) = .ok (decodeAt a.dir reg a.data) := by
  simp [decode, decodeAccess, wide, there]

/-- A 32-bit access at a misaligned offset is refused for its offset (R33). -/
theorem decode_misaligned {a : HostAccess} (wide : a.width = .w32) (misaligned : a.offset.toNat % 4 ≠ 0) :
    decode (.access a) = .error (.misaligned a.offset) := by
  simp [decode, decodeAccess, wide, (windowReg_eq_none_iff a.offset).mpr misaligned]

/-- An access of 8 or 16 bits is refused for its width (R33). -/
theorem decode_narrow {a : HostAccess} (narrow : a.width ≠ .w32) : decode (.access a) = .error (.narrow a.width) := by
  simp [decode, decodeAccess, narrow]

/-- The accesses that decode are those of 32 bits at the offset of a register (R33, R49). -/
theorem access_of_decode {a : HostAccess} {i : Instr} (h : decode (.access a) = .ok i) :
    ∃ reg : WindowReg, a.width = .w32 ∧ a.offset = reg.offset ∧ i = decodeAt a.dir reg a.data := by
  by_cases wide : a.width = .w32
  · cases there : windowReg a.offset with
    | some reg =>
      rw [decode_of_windowReg wide there] at h
      exact ⟨reg, wide, offset_of_windowReg there, (Except.ok.inj h).symm⟩
    | none =>
      rw [decode_misaligned wide ((windowReg_eq_none_iff _).mp there)] at h
      cases h
  · rw [decode_narrow wide] at h
    cases h

theorem decode_hostWrite (reg : WindowReg) (w : Word) : decode (hostWrite reg.offset w) = .ok (decodeAt .write reg w) :=
  decode_of_windowReg rfl (windowReg_offset reg)

theorem decode_hostRead (reg : WindowReg) : decode (hostRead reg.offset) = .ok (decodeAt .read reg 0#32) :=
  decode_of_windowReg rfl (windowReg_offset reg)

/-! ## The CMD rows -/

/-- The row of a CMD word holds the four fields of the word (R47). -/
theorem cmdFields_decodeCmd (w : Word) : cmdFields (decodeCmd w) = some (cmdOp w, cmdAddr w, cmdArg0 w, cmdArg1 w) := by
  cases named : opcodeOf (cmdOp w) with
  | some o =>
    have op := byte_of_opcodeOf _ _ named
    cases o <;> simp [decodeCmd, named, cmdFields, op]
  | none => simp [decodeCmd, named, cmdFields]

theorem wellFormed_decodeCmd (w : Word) : (decodeCmd w).WellFormed := by
  cases named : opcodeOf (cmdOp w) with
  | some o => cases o <;> simp [decodeCmd, named, Instr.WellFormed, Instr.wellFormed]
  | none => simp [decodeCmd, named, Instr.WellFormed, Instr.wellFormed]

/-- The request of a CMD row is the write of the word of its fields (R46, R58). -/
theorem encode_of_cmdFields {i : Instr} {op a v d : Byte} (h : cmdFields i = some (op, a, v, d)) :
    encode i = encodeCmd op a v d := by
  cases i <;> cases h <;> rfl

/-- OP alone says which row a CMD word belongs to, so the word of a row's fields is read as that row (R51). -/
theorem decodeCmd_of_cmdFields {i : Instr} {op a v d : Byte} (wf : i.WellFormed) (h : cmdFields i = some (op, a, v, d)) :
    decodeCmd (cmdWord op a v d) = i := by
  cases i with
  | cmdRejectOther op a v d =>
    cases h
    have unnamed : opcodeOf op = none := Option.isNone_iff_eq_none.mp wf
    simp [decodeCmd, unnamed]
  | _ => cases h <;> simp [decodeCmd]

theorem encode_decodeCmd (w : Word) : encode (decodeCmd w) = hostWrite 0x0#4 w := by
  rw [encode_of_cmdFields (cmdFields_decodeCmd w), encodeCmd, cmdWord_fields]

/-! ## The CTRL rows -/

theorem decodeCtrl_ctrlWord (init clr : Bool) (ignored : BitVec 30) : decodeCtrl (ctrlWord init clr ignored) =
    if init then .init clr ignored else if clr then .clrErr ignored else .ctrlNoop ignored := by
  simp [decodeCtrl]

theorem encode_decodeCtrl (w : Word) : encode (decodeCtrl w) = hostWrite 0xC#4 w := by
  rw [← ctrlWord_fields w, decodeCtrl_ctrlWord]
  cases w.getLsbD 0 <;> cases w.getLsbD 1 <;> rfl

theorem wellFormed_decodeCtrl (w : Word) : (decodeCtrl w).WellFormed := by
  unfold decodeCtrl
  split_ifs <;> rfl

/-! ## Each register by direction -/

theorem wellFormed_decodeAt (dir : HostDir) (reg : WindowReg) (w : Word) : (decodeAt dir reg w).WellFormed := by
  cases dir with
  | read => cases reg <;> rfl
  | write =>
    cases reg with
    | cmd => exact wellFormed_decodeCmd w
    | ctrl => exact wellFormed_decodeCtrl w
    | _ => rfl

/-- The operation a write is read as writes the same word at the same offset (R49). -/
theorem encode_decodeAt_write (reg : WindowReg) (w : Word) : encode (decodeAt .write reg w) = hostWrite reg.offset w := by
  cases reg with
  | cmd => exact encode_decodeCmd w
  | ctrl => exact encode_decodeCtrl w
  | _ => rfl

/-- The operation a read is read as reads the same offset (R49). -/
theorem encode_decodeAt_read (reg : WindowReg) (w : Word) : encode (decodeAt .read reg w) = hostRead reg.offset := by
  cases reg <;> rfl

/-! ## The round trips -/

/-- Settles O1: a CMD row is read back from its fields, a CTRL row from its two bits, and any other row from its offset. -/
theorem decodeOfEncodeIsIdentity : Obligations.DecodeOfEncodeIsIdentity := by
  intro i wf
  cases fields : cmdFields i with
  | some f =>
    obtain ⟨op, a, v, d⟩ := f
    rw [encode_of_cmdFields fields]
    exact (decode_hostWrite .cmd _).trans (congrArg _ (decodeCmd_of_cmdFields wf fields))
  | none =>
    cases i with
    | init clr g => exact (decode_hostWrite .ctrl _).trans (congrArg _ (decodeCtrl_ctrlWord true clr g))
    | clrErr g => exact (decode_hostWrite .ctrl _).trans (congrArg _ (decodeCtrl_ctrlWord false true g))
    | ctrlNoop g => exact (decode_hostWrite .ctrl _).trans (congrArg _ (decodeCtrl_ctrlWord false false g))
    | rdStatus => exact decode_hostRead .status
    | hasPendingEvent => rfl
    | rdResult => exact decode_hostRead .result
    | rdCmd => exact decode_hostRead .cmd
    | rdCtrl => exact decode_hostRead .ctrl
    | wrStatus w => exact decode_hostWrite .status w
    | wrResult w => exact decode_hostWrite .result w
    | _ => cases fields

/-- Settles O2: an access that decodes is at the offset of a register, and both directions re-encode at that offset. -/
theorem decodedRequestReencodes : Obligations.DecodedRequestReencodes := by
  intro r i decodes
  cases r with
  | pending =>
    cases decodes
    exact ⟨rfl, rfl, rfl, rfl, fun write => by cases write⟩
  | access a =>
    obtain ⟨dir, width, off, data⟩ := a
    obtain ⟨reg, rfl, rfl, rfl⟩ := access_of_decode decodes
    refine ⟨wellFormed_decodeAt _ _ _, ?_⟩
    cases dir with
    | read => simp [encode_decodeAt_read, hostRead, HostRequest.busAccess]
    | write => simp [encode_decodeAt_write, hostWrite, HostRequest.busAccess]

/-- Settles O3: the aligned offsets are those with a register. -/
theorem decodeTotalOnAlignedWords : Obligations.DecodeTotalOnAlignedWords := by
  refine fun a => ⟨fun wide aligned => ?_, decode_misaligned, decode_narrow⟩
  cases there : windowReg a.offset with
  | some reg => exact ⟨_, decode_of_windowReg wide there⟩
  | none => exact absurd aligned ((windowReg_eq_none_iff _).mp there)

/-- Settles O5: each word is the one the encoder writes for its operation, so this is the round trip at those operations. -/
theorem writtenOutWordsDecode : Obligations.WrittenOutWordsDecode := by
  have rt := decodeOfEncodeIsIdentity
  exact ⟨rt (.reset 0x00#8 0x00#8 0x00#8) rfl, rt (.read 0x2A#8 0x00#8 0x00#8) rfl, rt (.write 0x0F#8 0x80#8 0x00#8) rfl,
    rt (.bitModify 0x0F#8 0x35#8 0x21#8) rfl, rt (.readStatus 0x00#8 0x00#8 0x00#8) rfl,
    rt (.rxStatus 0xFF#8 0xFF#8 0xFF#8) rfl, rt (.cmdRejectWriteRx 0x00#8 0x00#8 0x00#8) rfl,
    rt (.cmdRejectOther 0x04#8 0x00#8 0x00#8 0x00#8) rfl, rt (.init false 0#30) rfl, rt (.init true 0#30) rfl,
    rt (.clrErr 0#30) rfl, rt .rdStatus rfl⟩

end Sys2Proof

namespace Sys2Proof.Machine

/-! ## The effect of an access, and the frame table -/

/-- Whatever its row, a CTRL word is CtrlWrite on its two bits: CLR_ERR first, then INIT (R48, R92). -/
theorem exec_decodeCtrl (w : Word) (s : State) : exec (decodeCtrl w) s = .next
    (if w.getLsbD 0 then initRequest (if w.getLsbD 1 then clearErrors s else s)
      else if w.getLsbD 1 then clearErrors s else s) := by
  unfold decodeCtrl
  cases w.getLsbD 0 <;> cases w.getLsbD 1 <;> rfl

/-- Settles O4: by the register at each offset; the two writes with an effect are those of their word. -/
theorem hostAccessEffectByOffset : Obligations.HostAccessEffectByOffset := fun w s =>
  ⟨⟨_, decode_hostWrite .cmd w, exec_decodeCmd w s⟩, ⟨_, decode_hostWrite .status w, rfl⟩,
    ⟨_, decode_hostWrite .result w, rfl⟩, ⟨_, decode_hostWrite .ctrl w, exec_decodeCtrl w s⟩,
    ⟨_, decode_hostRead .cmd, rfl⟩, ⟨_, decode_hostRead .status, rfl⟩, ⟨_, decode_hostRead .result, rfl⟩,
    ⟨_, decode_hostRead .ctrl, rfl⟩⟩

/-- In IDLE with READY = 1 a CMD write enters ASSERT exactly when its OP is supported (R51, R55, R72). -/
theorem cmdWrite_starts_iff {op a v d : Byte} {s : State} (idle : s.block.phase = .idle) (ready : s.block.ready = true) :
    (cmdWrite op a v d s).block.phase = .assert ↔ supported op = true := by
  cases known : supported op with
  | true => simp [cmdWrite_accept idle ready known]
  | false => simp [cmdWrite_badOp idle ready known, idle]

/-- Settles O6: the write of a CMD word is CmdWrite on its fields, which starts a frame exactly for a supported OP. -/
theorem acceptedOpcodesAreExactlySix : Obligations.AcceptedOpcodesAreExactlySix := by
  intro w s idle ready
  have decodes := decode_hostWrite .cmd w
  have starts := cmdWrite_starts_iff (op := cmdOp w) (a := cmdAddr w) (v := cmdArg0 w) (d := cmdArg1 w) idle ready
  have six : supported (cmdOp w) = true ↔ cmdOp w ∈ supportedOps := List.contains_iff_mem
  refine Iff.trans ⟨?_, fun h => ⟨_, _, decodes, exec_decodeCmd w s, h⟩⟩ (starts.trans six)
  rintro ⟨i, t, decoded, runs, started⟩
  obtain rfl : decodeCmd w = i := Except.ok.inj (decodes.symm.trans decoded)
  obtain rfl : _ = t := Host.Outcome.next.inj ((exec_decodeCmd w s).symm.trans runs)
  exact started

/-- Settles O7: the table is read off opcode by opcode, and any other OP keeps no reply. -/
theorem frameAndCaptureTable : Obligations.FrameAndCaptureTable := by
  refine fun addr arg0 arg1 => ⟨rfl, rfl, rfl, rfl, rfl, rfl, rfl, rfl, rfl, fun op noRead noStatus noRxStatus => ?_⟩
  simp [capIdx, noRead, noStatus, noRxStatus]

end Sys2Proof.Machine
end

section
/-! SUPPORT. The transport and its framing (40_transport_framing.md): the steps of a frame, the select line, the frame the trace
holds, and an exchange that hangs (R60 to R71, R81, R105). -/

namespace Sys2Proof.Machine

/-! ## The steps of a frame -/

/-- Settles O24: the completion step with the byte in hand leaves both lines low, and the index and the phase as R67 says. -/
theorem exchangeCompletionStep : Obligations.ExchangeCompletionStep :=
  fun _ _ _ _ high onAgenda exchanging byte => ⟨false, false, step_transport high onAgenda exchanging byte⟩

/-- Settles O23: in ASSERT the sequencer's step is `Block.assert` with CS_LOW recorded. -/
theorem assertStepSelectsThePeripheral : Obligations.AssertStepSelectsThePeripheral := by
  intro s rest high onAgenda p
  rw [step_sequencer high onAgenda]
  simp [sequencerStep, p, emit, onBlock, Block.assert]

/-- Settles O25: in DEASSERT the sequencer's step is `Block.deassert` with CS_HIGH recorded. -/
theorem deassertStepReleasesAndCaptures : Obligations.DeassertStepReleasesAndCaptures := by
  intro s rest high onAgenda p
  rw [step_sequencer high onAgenda]
  simp [sequencerStep, p, emit, onBlock, Block.deassert, Option.isSome_iff_ne_none]

/-! ## Select and the open frame -/

/-- Settles O44: of all moves ASSERT alone drives select low, and DEASSERT and block reset alone find it low and drive it high;
INIT_LINES finds it high (R71). -/
theorem selectMovesOnlyByRule : Obligations.SelectMovesOnlyByRule := by
  intro s t inv h
  cases step_moves inv.reset h with
  | asserted hn p b _ => simp [b, p, hn]
  | deasserted hn p b _ => simp [b, p, hn]
  | linesSet _ p b _ =>
    have wasHigh : s.block.csN = true := by rw [inv.block.select, p]; rfl
    simp [b, wasHigh]
  | wasReset hn b _ => simp [b, hn, Block.reset]
  | _ => rename_i b _; simp +contextual [b, apply_ite Block.csN]

/-- Settles O46: in DEASSERT the index stands at the end of the frame, so the bytes sent so far are the whole frame, and every
capture index is past. -/
theorem deassertClosesExactlyTheFrame : Obligations.DeassertClosesExactlyTheFrame := by
  intro s inv p
  have selected : s.block.csN = false := by rw [inv.block.select, p]; rfl
  have allSent : s.block.k.toNat = s.block.frame.length := inv.block.allSent p
  obtain ⟨xs, opened, sent, kept⟩ := (traceFits_open selected _).mp inv.trace
  refine ⟨xs, opened, ?_, fun c captures => kept c captures ?_⟩
  · rw [sent, allSent, List.take_length]; rfl
  · rw [allSent]; exact capIdx_lt _ _ _ captures

/-! ## Runs -/

/-- A run that completes is one step that completes and the rest of the run. -/
theorem step_of_runFor_succ {n : Nat} {s t : State} (h : runFor (n + 1) s = .next t) :
    ∃ u, step s = .next u ∧ runFor n u = .next t := by
  cases first : step s with
  | next u => exact ⟨u, rfl, runFor_succ n first ▸ h⟩
  | fault r => simp [runFor, first] at h
  | refused r => simp [runFor, first] at h

/-- The invariant holds along every run (R68). -/
theorem runFor_inv {n : Nat} {s t : State} (inv : s.Inv) (h : runFor n s = .next t) : t.Inv := by
  induction n generalizing s with
  | zero => exact Host.Outcome.next.inj h ▸ inv
  | succ n ih =>
    obtain ⟨u, first, others⟩ := step_of_runFor_succ h
    exact ih (invariantKeptByEveryStep s u inv first) others

/-- A trace that fits the block is framed: it is closed, or open with some exchanges (R68). -/
theorem scanTrace_ne_none_of_traceFits {b : Block} {tr : List Event} (h : traceFits b tr) : scanTrace tr ≠ none := by
  cases c : b.csN with
  | true => simp [(traceFits_closed c tr).mp h]
  | false =>
    obtain ⟨xs, opened, -, -⟩ := (traceFits_open c tr).mp h
    simp [opened]

/-- Settles O35: a run keeps the invariant, whose trace clause holds the framing. -/
theorem runsKeepTheFraming : Obligations.RunsKeepTheFraming :=
  fun _ _ _ inv h => scanTrace_ne_none_of_traceFits (runFor_inv inv h).trace

/-! ## The agenda -/

@[simp] theorem holdInReset_agenda (s t : State) : (holdInReset s t).agenda = t.agenda := by
  unfold holdInReset; split <;> rfl

@[simp] theorem driveReset_agenda (level : Bool) (s : State) : (driveReset level s).agenda = s.agenda := by
  cases level <;> rfl

theorem exec_agenda {i : Instr} {s t : State} (h : exec i s = .next t) : t.agenda = s.agenda := by
  obtain ⟨-, -, -, -, -, -, -, -, -, -, -, -, -, agenda, -⟩ := hostOperationsLeaveTheBusAlone i s t h
  exact agenda

theorem sequencerStep_keeps_agenda (s : State) : (sequencerStep s).agenda = s.agenda := by
  rcases sequencerStep_cases s with ⟨-, x⟩ | ⟨-, x⟩ | ⟨-, x⟩ | ⟨-, x⟩ | ⟨-, x⟩ <;> simp [x]

theorem settleStep_agenda (s : State) : (settleStep s).agenda = s.agenda := by
  rcases settleStep_cases s with ⟨-, x⟩ | ⟨-, x⟩ <;> simp [x]

theorem transportStep_agenda {miso : Byte} {s t : State} (h : transportStep miso s = .next t) : t.agenda = s.agenda := by
  rcases transportStep_cases h with ⟨-, rfl⟩ | ⟨-, tx, -, rfl⟩ <;> simp

/-- A step takes its own turn from the agenda and leaves the others (R10). -/
theorem step_agenda {s t : State} (h : step s = .next t) : t.agenda = (takeTurn s).agenda := by
  rcases step_cases h with ⟨i, line, u, -, -, x, rfl⟩ | ⟨m, line, -, -, rfl⟩ | ⟨-, rfl⟩ | ⟨miso, u, -, x, rfl⟩ | ⟨-, rfl⟩ |
    ⟨level, -, rfl⟩
  · simp [exec_agenda x]
  · simp
  · simp [sequencerStep_keeps_agenda]
  · simp [transportStep_agenda x]
  · simp [settleStep_agenda]
  · simp

/-! ## An exchange that hangs -/

/-- With the reset pin high, an exchange in progress is left alone by every step but the transport's and a block reset's: only
the error flags of the block can change, and the bus sees no event (R63). -/
theorem step_keeps_exchange {s t : State} (high : s.rstN = true) (exchanging : s.block.phase = .xfer)
    (noTransport : ∀ rx, nextTurn s ≠ .transport rx) (noReset : nextTurn s ≠ .resetPin false) (h : step s = .next t) :
    t.block.clearErrs = s.block.clearErrs ∧ busEvents t.trace = busEvents s.trace := by
  cases step_moves (by simp [high]) h with
  | quiet b e => simp [b, e]
  | rejected i kind clr _ _ _ b e => simp [b, e, Block.clearErrs_setErr, Block.clearErrs_ite]
  | errorsCleared g _ b e => exact ⟨by rw [b]; rfl, by rw [e]⟩
  | completed rx tx hn => exact absurd hn (noTransport rx)
  | wasReset hn => exact absurd hn noReset
  | accepted _ _ _ _ _ _ _ p | initAccepted _ _ _ p | linesSet _ p | transportSet _ p | asserted _ p | deasserted _ p
  | settled _ p => simp [p] at exchanging

/-- Along every stretch of the agenda without the transport and the reset pin an exchange in progress is left alone (R63, R105). -/
theorem runFor_keeps_exchange {n : Nat} {s t : State} (high : s.rstN = true) (exchanging : s.block.phase = .xfer)
    (onAgenda : n ≤ s.agenda.length)
    (others : ∀ u ∈ s.agenda.take n, (∀ rx, u ≠ .transport rx) ∧ u ≠ .resetPin false) (h : runFor n s = .next t) :
    t.block.clearErrs = s.block.clearErrs ∧ busEvents t.trace = busEvents s.trace := by
  induction n generalizing s with
  | zero => obtain rfl := Host.Outcome.next.inj h; exact ⟨rfl, rfl⟩
  | succ n ih =>
    obtain ⟨mid, first, later⟩ := step_of_runFor_succ h
    cases agenda : s.agenda with
    | nil => simp [agenda] at onAgenda
    | cons turn rest =>
      rw [agenda, List.take_succ_cons, List.forall_mem_cons] at others
      obtain ⟨⟨noTransport, noReset⟩, others⟩ := others
      rw [← nextTurn_cons s turn rest agenda] at noTransport noReset
      have left : mid.agenda = rest := by rw [step_agenda first, takeTurn_cons s turn rest agenda]
      have midHigh : mid.rstN = true := by
        rcases step_rstN first with same | ⟨level, pin, rfl⟩
        · rw [same, high]
        · cases level with
          | false => exact absurd pin noReset
          | true => rfl
      obtain ⟨block, bus⟩ := step_keeps_exchange high exchanging noTransport noReset first
      have midExchanging : mid.block.phase = .xfer := (congrArg Block.phase block).trans exchanging
      have inRest : n ≤ rest.length := by simpa [agenda] using onAgenda
      obtain ⟨block', bus'⟩ := ih midHigh midExchanging (left ▸ inRest) (left ▸ others) later
      exact ⟨block'.trans block, bus'.trans bus⟩

/-- Settles O50: along such a run nothing of the block changes but the error flags. -/
theorem hangLastsUntilTransportOrReset : Obligations.HangLastsUntilTransportOrReset := by
  intro n s t high exchanging onAgenda others h
  obtain ⟨block, bus⟩ := runFor_keeps_exchange high exchanging onAgenda others h
  exact ⟨(congrArg Block.phase block).trans exchanging, by simpa using congrArg Block.csN block,
    by simpa using congrArg Block.k block, bus⟩

end Sys2Proof.Machine
end

section
/-! SUPPORT. The command protocol (41_command_protocol.md): what a CMD write does in IDLE with READY = 1, the end of SETTLE, and
the whole run of a command, from its write to the release of select (R72 to R84, R88, R96, R126). -/

namespace Sys2Proof.Machine

/-! ## A CMD row in IDLE with READY = 1 -/

/-- The row of a supported OP is accepted (R72). -/
theorem exec_accept {i : Instr} {op a v d : Byte} {s : State} (fields : cmdFields i = some (op, a, v, d))
    (idle : s.block.phase = .idle) (ready : s.block.ready = true) (ok : supported op = true) :
    exec i s = .next (onBlock (Block.accept op a v d) s) := by
  rw [exec_of_cmdFields fields, cmdWrite_accept idle ready ok]

/-- The row of any other OP is rejected (R84, R103). -/
theorem exec_badOp {i : Instr} {op a v d : Byte} {s : State} (fields : cmdFields i = some (op, a, v, d))
    (idle : s.block.phase = .idle) (ready : s.block.ready = true) (unsupported : supported op = false) :
    exec i s = .next (raise .badOp s) := by
  rw [exec_of_cmdFields fields, cmdWrite_badOp idle ready unsupported]

/-- SUPPORTED is part of the nine opcodes (R50, R51). -/
theorem supported_eq_false_of_opcodeOf_eq_none {op : Byte} (unnamed : opcodeOf op = none) : supported op = false := by
  rw [Bool.eq_false_iff, ne_eq, supported_iff]
  rintro (rfl | rfl | rfl | rfl | rfl | rfl) <;> exact absurd unnamed (by decide)

/-- Settles O12: each of the six rows carries a supported OP. -/
theorem supportedCommandIsAccepted : Obligations.SupportedCommandIsAccepted := fun _ _ _ _ idle ready =>
  ⟨exec_accept rfl idle ready rfl, exec_accept rfl idle ready rfl, exec_accept rfl idle ready rfl,
    exec_accept rfl idle ready rfl, exec_accept rfl idle ready rfl, exec_accept rfl idle ready rfl⟩

/-- Settles O13: three of the nine opcodes are not supported, and neither is an OP outside the nine. -/
theorem unsupportedOpcodeIsRejected : Obligations.UnsupportedOpcodeIsRejected := fun _ _ _ _ idle ready =>
  ⟨exec_badOp rfl idle ready rfl, exec_badOp rfl idle ready rfl, exec_badOp rfl idle ready rfl, fun _ wf =>
    exec_badOp rfl idle ready (supported_eq_false_of_opcodeOf_eq_none (Option.isNone_iff_eq_none.mp wf))⟩

/-! ## The end of SETTLE -/

/-- Settles O27: in SETTLE the timer's step is `Block.endSettle`. -/
theorem settleEndFinishesInit : Obligations.SettleEndFinishesInit := by
  intro s rest high onAgenda settling
  rw [step_settleTimer high onAgenda, settleStep, if_pos (by exact settling)]
  rfl

/-! ## The exchanges of a frame -/

/-- The block after one completed exchange for each reply, in order (R61, R67). -/
def Block.exchanges (replies : List Byte) (b : Block) : Block :=
  replies.foldl (fun b rx => (b.complete rx).drive ⟨false, false⟩) b

theorem Block.exchanges_concat (replies : List Byte) (rx : Byte) (b : Block) :
    b.exchanges (replies ++ [rx]) = ((b.exchanges replies).complete rx).drive ⟨false, false⟩ :=
  List.foldl_concat ..

/-- Exchanges change nothing of the block but the two lines, the index, the capture register, the transfer-complete flag and the
phase (R67). -/
theorem Block.exchanges_keeps (replies : List Byte) (b : Block) : b.exchanges replies = { b with
    sck := (b.exchanges replies).sck, mosi := (b.exchanges replies).mosi, k := (b.exchanges replies).k
    cap := (b.exchanges replies).cap, xferDone := (b.exchanges replies).xferDone, phase := (b.exchanges replies).phase } := by
  induction replies generalizing b with
  | nil => rfl
  | cons rx replies ih => exact ih _

@[simp] theorem Block.exchanges_op (replies : List Byte) (b : Block) : (b.exchanges replies).op = b.op := by
  rw [exchanges_keeps]

@[simp] theorem Block.exchanges_frame (replies : List Byte) (b : Block) : (b.exchanges replies).frame = b.frame := by
  rw [exchanges_keeps]; rfl

@[simp] theorem Block.exchanges_result (replies : List Byte) (b : Block) : (b.exchanges replies).result = b.result := by
  rw [exchanges_keeps]

@[simp] theorem Block.exchanges_rvalid (replies : List Byte) (b : Block) : (b.exchanges replies).rvalid = b.rvalid := by
  rw [exchanges_keeps]

@[simp] theorem Block.exchanges_ready (replies : List Byte) (b : Block) : (b.exchanges replies).ready = b.ready := by
  rw [exchanges_keeps]

/-- No frame is long enough for the index to wrap (R54). -/
theorem Block.k_succ {b : Block} (inFrame : b.k.toNat < b.frame.length) : (b.k + 1#3).toNat = b.k.toNat + 1 := by
  have short : b.frame.length ≤ 4 := frame_length_le _ _ _ _
  rw [BitVec.toNat_add_of_lt] <;> simp; omega

/-- From index 0 on the index counts the exchanges (R67). -/
theorem Block.exchanges_k {replies : List Byte} {b : Block} (start : b.k = 0#3)
    (inFrame : replies.length ≤ b.frame.length) : (b.exchanges replies).k.toNat = replies.length := by
  induction replies using List.reverseRecOn with
  | nil => simp [exchanges, start]
  | append_singleton replies rx ih =>
    rw [List.length_append, List.length_singleton] at inFrame ⊢
    have count := ih (by omega)
    rw [exchanges_concat, block_drive_k, block_complete_k, k_succ (by rw [count, exchanges_frame]; omega), count]

/-- The last exchange of a frame leads to DEASSERT (R67). -/
theorem Block.exchanges_phase {replies : List Byte} {b : Block} (start : b.k = 0#3) (nonempty : replies ≠ [])
    (all : replies.length = b.frame.length) : (b.exchanges replies).phase = .deassert := by
  obtain ⟨before, rx, rfl⟩ := (List.eq_nil_or_concat' replies).resolve_left nonempty
  rw [List.length_append, List.length_singleton] at all
  have count := exchanges_k start (replies := before) (by omega)
  simp [exchanges_concat, count, all]

/-- After the exchange of the capture index the capture register holds its reply (R21, R67). -/
theorem Block.exchanges_cap {replies : List Byte} {b : Block} {c : Nat} (start : b.k = 0#3)
    (inFrame : replies.length ≤ b.frame.length) (captures : capIdx b.op = some c) (past : c < replies.length) :
    replies[c]? = some (b.exchanges replies).cap := by
  induction replies using List.reverseRecOn with
  | nil => simp at past
  | append_singleton replies rx ih =>
    rw [List.length_append, List.length_singleton] at inFrame past
    have count := exchanges_k start (replies := replies) (by omega)
    simp only [exchanges_concat, block_drive_cap, block_complete_cap, exchanges_op, captures, count, Option.some.injEq]
    obtain rfl | earlier : c = replies.length ∨ c < replies.length := by omega
    · simp
    · rw [if_neg earlier.ne, List.getElem?_append_left earlier]
      exact ih (by omega) earlier

/-! ## The run of a command -/

/-- A run is its first steps and the rest of the run. -/
theorem runFor_add {m : Nat} (n : Nat) {s t : State} (h : runFor m s = .next t) : runFor (m + n) s = runFor n t := by
  induction m generalizing s with
  | zero => obtain rfl := Host.Outcome.next.inj h; rw [Nat.zero_add]
  | succ m ih =>
    obtain ⟨u, first, others⟩ := step_of_runFor_succ h
    rw [Nat.succ_add, runFor_succ _ first, ih others]

/-- The transport's turns for the rest of a frame send its bytes in order, each with its reply (R60, R67). -/
theorem runFor_transport {s : State} {b : Block} {tr : List Event} {replies : List Byte} {rest : List Turn}
    (high : s.rstN = true) (left : b.k.toNat + replies.length = b.frame.length)
    (exchanging : replies ≠ [] → b.phase = .xfer) :
    runFor replies.length { s with block := b, trace := tr, agenda := replies.map Turn.transport ++ rest } = .next { s with
      block := b.exchanges replies
      trace := tr ++ (b.frame.drop b.k.toNat).zipWith Event.xchg replies
      agenda := rest } := by
  induction replies generalizing b tr with
  | nil => simp [runFor, Block.exchanges]
  | cons rx replies ih =>
    rw [List.length_cons] at left
    have inFrame : b.k.toNat < b.frame.length := by omega
    have next : ((b.complete rx).drive ⟨false, false⟩).k.toNat = b.k.toNat + 1 := Block.k_succ inFrame
    have sent : tr ++ (b.frame.drop b.k.toNat).zipWith Event.xchg (rx :: replies) =
        tr ++ [.xchg b.frame[b.k.toNat] rx] ++ (b.frame.drop (b.k.toNat + 1)).zipWith Event.xchg replies := by
      rw [List.drop_eq_getElem_cons inFrame, List.zipWith_cons_cons, List.append_cons]
    rw [List.length_cons, runFor_succ _ (step_transport (by exact high) rfl (exchanging (by simp))
      (List.getElem?_eq_getElem inFrame)), sent, ← next]
    have notLast (more : replies ≠ []) : b.k.toNat + 1 ≠ b.frame.length := fun last =>
      more (List.length_eq_zero_iff.mp (by omega))
    exact ih (by rw [next, Nat.add_right_comm]; exact left) fun more => if_neg (notLast more)

/-- The sequencer's turn in ASSERT (R65). -/
theorem step_assert {s : State} {rest : List Turn} (high : s.rstN = true) (onAgenda : s.agenda = .sequencer :: rest)
    (p : s.block.phase = .assert) :
    step s = .next { s with block := s.block.assert, trace := s.trace ++ [.csLow], agenda := rest } := by
  rw [step_sequencer high onAgenda]
  simp [sequencerStep, p, emit, onBlock]

/-- The sequencer's turn in DEASSERT (R66). -/
theorem step_deassert {s : State} {rest : List Turn} (high : s.rstN = true) (onAgenda : s.agenda = .sequencer :: rest)
    (p : s.block.phase = .deassert) :
    step s = .next { s with block := s.block.deassert, trace := s.trace ++ [.csHigh], agenda := rest } := by
  rw [step_sequencer high onAgenda]
  simp [sequencerStep, p, emit, onBlock]

/-- The block after the run of a command: accepted, selected, each byte of its frame exchanged, released (R72 to R81). -/
def Block.command (op addr arg0 arg1 : Byte) (replies : List Byte) (b : Block) : Block :=
  ((b.accept op addr arg0 arg1).assert.exchanges replies).deassert

/-- A capturing command leaves the reply of its capture index in RESULT, and RVALID says so (R81). -/
theorem Block.command_captures {op a v d : Byte} {replies : List Byte} {c : Nat} (b : Block) (captures : capIdx op = some c)
    (all : replies.length = (Machine.frame op a v d).length) :
    replies[c]? = some (b.command op a v d replies).result ∧ (b.command op a v d replies).rvalid = true := by
  have past : c < replies.length := all ▸ capIdx_lt a v d captures
  have kept := exchanges_cap (b := (b.accept op a v d).assert) rfl all.le captures past
  simp [command, captures, kept]

section CommandRun

variable {s : State} {i : Instr} {op a v d : Byte} {line : IntLine} {replies : List Byte} {rest : List Turn}
  (high : s.rstN = true) (idle : s.block.phase = .idle) (ready : s.block.ready = true) (wf : i.WellFormed)
  (fields : cmdFields i = some (op, a, v, d)) (ok : supported op = true) (all : replies.length = (frame op a v d).length)
include high idle ready wf fields ok all

/-- An accepted command runs from its write to the release of select in 3 steps and one for each byte of its frame: this is the
whole state after it (R73, R126). -/
theorem runFor_command
    (onAgenda : s.agenda = .host (encode i) line :: .sequencer :: (replies.map Turn.transport ++ .sequencer :: rest)) :
    runFor (3 + replies.length) s = .next { s with
      block := s.block.command op a v d replies
      trace := s.trace ++ frameEvents (frame op a v d) replies
      intLine := line
      agenda := rest } := by
  have accepts := (step_host high onAgenda (decodeOfEncodeIsIdentity i wf)).trans (exec_accept fields idle ready ok)
  have exchanges := runFor_transport (s := { s with intLine := line }) (b := (s.block.accept op a v d).assert)
    (tr := s.trace ++ [.csLow]) (rest := .sequencer :: rest) high ((Nat.zero_add _).trans all) fun _ => rfl
  have nonempty : replies ≠ [] := List.ne_nil_of_length_pos (all ▸ frame_length_pos a v d ok)
  have sent : ((s.block.accept op a v d).assert.exchanges replies).phase = .deassert :=
    Block.exchanges_phase rfl nonempty all
  have wholeFrame : (s.block.accept op a v d).assert.frame.drop 0 = frame op a v d := rfl
  rw [show 3 + replies.length = replies.length + 1 + 1 + 1 by omega, runFor_succ _ accepts,
    runFor_succ _ (step_assert (by exact high) rfl rfl)]
  refine (runFor_add 1 exchanges).trans ?_
  rw [runFor_succ 0 (step_deassert (by exact high) rfl sent)]
  simp [runFor, Block.command, frameEvents, wholeFrame]

/-- A capturing command and then a read of RESULT: the read returns the reply of the capture index (R76, R79, R80, R88). -/
theorem runFor_command_rdResult {line' : IntLine} {c : Nat} {r : Byte} (captures : capIdx op = some c)
    (reply : replies[c]? = some r)
    (onAgenda : s.agenda = .host (encode i) line :: .sequencer ::
      (replies.map Turn.transport ++ .sequencer :: .host (encode .rdResult) line' :: rest)) :
    ∃ t, runFor (3 + replies.length + 1) s = .next t ∧ t.reads = s.reads ++ [r.setWidth 32] := by
  have command := runFor_command high idle ready wf fields ok all onAgenda
  have reads := step_host (s := { s with
    block := s.block.command op a v d replies
    trace := s.trace ++ frameEvents (frame op a v d) replies
    intLine := line
    agenda := .host (encode .rdResult) line' :: rest }) high rfl (decodeOfEncodeIsIdentity .rdResult rfl)
  obtain ⟨kept, -⟩ := Block.command_captures s.block captures all
  obtain rfl : r = _ := Option.some.inj (reply.symm.trans kept)
  exact ⟨_, (runFor_add 1 command).trans (runFor_succ 0 reads), rfl⟩

end CommandRun

/-- Settles O47: each clause is read off the whole state after the run. -/
theorem commandRunsExactlyItsFrame : Obligations.CommandRunsExactlyItsFrame := by
  intro s i op a v d line replies rest high idle ready wf fields ok all onAgenda
  refine ⟨_, runFor_command high idle ready wf fields ok all onAgenda, rfl, rfl, ?phase,
    fun c captures => Block.command_captures s.block captures all, fun capturesNone => ?uncaptured, ?ready, rfl⟩
  case phase => simp [Block.command]
  case uncaptured => simp [Block.command, capturesNone]
  case ready => simpa [Block.command] using ready

/-- Settles O49: the three capturing commands, with the capture index of each. -/
theorem capturedReplyIsReturnedUnmodified : Obligations.CapturedReplyIsReturnedUnmodified :=
  fun _ _ _ _ r0 r1 r2 _ _ high idle ready =>
    ⟨runFor_command_rdResult (replies := [r0, r1, r2]) (c := 2) high idle ready rfl rfl rfl rfl rfl rfl,
      runFor_command_rdResult (replies := [r0, r1]) (c := 1) high idle ready rfl rfl rfl rfl rfl rfl,
      runFor_command_rdResult (replies := [r0, r1]) (c := 1) high idle ready rfl rfl rfl rfl rfl rfl⟩

end Sys2Proof.Machine
end

section
/-! SUPPORT. The reads of the window and the writes it ignores (42_status_and_interrupt.md): STATUS bit by bit, RESULT and the
write-only registers (R15, R16, R48, R87 to R90). -/

namespace Sys2Proof.Machine

/-- The reserved bits of STATUS, 7:5 and 31:11, read 0 (R15). -/
theorem statusWord_reserved (s : State) {n : Nat} (reserved : 5 ≤ n ∧ n ≤ 7 ∨ 11 ≤ n) : (statusWord s).getLsbD n = false := by
  rw [statusWord_bit]
  iterate 8 rw [if_neg (by omega)]

/-- Settles O19: the answer is the STATUS word, and each bit is read off the layout. -/
theorem statusReadReturnsItsBits : Obligations.StatusReadReturnsItsBits := by
  intro s
  refine ⟨statusWord s, rfl, ?busy, ?ready, ?pend, ?rvalid, ?csActive, ?errBusy, ?errNotReady, ?errBadOp,
    fun _ => statusWord_reserved s⟩
  case pend => exact (statusWord_bit s 2).trans (pend_eq s)
  all_goals exact statusWord_bit s _

/-- Settles O18: the three writes have arms that answer the state they are given. -/
theorem ignoredWritesChangeNothing : Obligations.IgnoredWritesChangeNothing :=
  fun _ _ _ => ⟨rfl, rfl, rfl⟩

/-- Settles O21: each of the three reads answers its register's word. -/
theorem resultAndWriteOnlyReads : Obligations.ResultAndWriteOnlyReads :=
  fun _ => ⟨rfl, rfl, rfl⟩

end Sys2Proof.Machine
end

section
/-! SUPPORT. Initialisation and control (43_init_and_control.md): the CTRL rows, the steps of the initialisation, and the whole
run of INIT, from its write to READY (R92 to R97, R126). -/

namespace Sys2Proof.Machine

/-! ## The CTRL rows -/

/-- INIT in IDLE is accepted, with CLR_ERR applied first where its bit is set (R92, R93). -/
theorem exec_init_accept {s : State} (clr : Bool) (ignored : BitVec 30) (idle : s.block.phase = .idle) :
    exec (.init clr ignored) s =
      .next { s with block := (if clr then s.block.clearErrs else s.block).acceptInit } := by
  cases clr with
  | false => exact congrArg Host.Outcome.next (initRequest_accept idle)
  | true => exact congrArg Host.Outcome.next (initRequest_accept (s := clearErrors s) idle)

/-- Settles O16: the accepted block, field by field, for both values of CLR_ERR. -/
theorem initIsAcceptedWhenIdle : Obligations.InitIsAcceptedWhenIdle := by
  intro clr ignored s idle
  rw [exec_init_accept clr ignored idle]
  cases clr <;> rfl

/-- Settles O17: the arm of CLR_ERR is `clearErrors`, which reads no phase. -/
theorem clearErrorsClearsOnlyTheFlags : Obligations.ClearErrorsClearsOnlyTheFlags :=
  fun _ _ => rfl

/-! ## The steps of the initialisation -/

/-- The sequencer's turn in INIT_LINES (R94). -/
theorem step_initLines {s : State} {rest : List Turn} (high : s.rstN = true) (onAgenda : s.agenda = .sequencer :: rest)
    (p : s.block.phase = .initLines) : step s = .next { s with block := s.block.initLines, agenda := rest } := by
  rw [step_sequencer high onAgenda]
  simp [sequencerStep, p, onBlock]

/-- The sequencer's turn in INIT_XPORT (R95). -/
theorem step_initXport {s : State} {rest : List Turn} (high : s.rstN = true) (onAgenda : s.agenda = .sequencer :: rest)
    (p : s.block.phase = .initXport) : step s = .next { s with block := s.block.initXport, agenda := rest } := by
  rw [step_sequencer high onAgenda]
  simp [sequencerStep, p, onBlock]

/-- Settles O26: the two turns are `Block.initLines` and `Block.initXport`. -/
theorem initStepsConfigureLinesAndTransport : Obligations.InitStepsConfigureLinesAndTransport :=
  fun _ _ high onAgenda => ⟨step_initLines high onAgenda, step_initXport high onAgenda⟩

/-- The settle timer's turn in SETTLE (R75, R96). -/
theorem step_endSettle {s : State} {rest : List Turn} (high : s.rstN = true) (onAgenda : s.agenda = .settleTimer :: rest)
    (p : s.block.phase = .settle) : step s = .next { s with block := s.block.endSettle, agenda := rest } :=
  settleEndFinishesInit s rest high onAgenda p

/-! ## The run of INIT -/

/-- The block as an accepted INIT leads it to ASSERT: CLR_ERR where its bit is set, then the lines and the transport
(R92 to R95). -/
def Block.initSetup (clr : Bool) (b : Block) : Block :=
  (if clr then b.clearErrs else b).acceptInit.initLines.initXport

/-- The block after the run of INIT: set up, selected, the one byte of the Reset frame exchanged, released, settled
(R92 to R96). -/
def Block.init (clr : Bool) (reply : Byte) (b : Block) : Block :=
  ((b.initSetup clr).assert.exchanges [reply]).deassert.endSettle

/-- INIT runs from its write to ASSERT in 3 steps: this is the whole state after them (R93 to R95). -/
theorem runFor_initSetup {s : State} {clr : Bool} {ignored : BitVec 30} {line : IntLine} {rest : List Turn}
    (high : s.rstN = true) (idle : s.block.phase = .idle)
    (onAgenda : s.agenda = .host (encode (.init clr ignored)) line :: .sequencer :: .sequencer :: rest) :
    runFor 3 s = .next { s with block := s.block.initSetup clr, intLine := line, agenda := rest } := by
  have accepts := (step_host high onAgenda (decodeOfEncodeIsIdentity _ rfl)).trans (exec_init_accept clr ignored idle)
  rw [runFor_succ _ accepts, runFor_succ _ (step_initLines (by exact high) rfl rfl)]
  exact runFor_succ 0 (step_initXport high rfl rfl)

/-- A Reset frame runs from ASSERT to the end of its settle wait in 4 steps: this is the whole state after them
(R65 to R67, R75, R96). -/
theorem runFor_resetFrame {s : State} {reply : Byte} {rest : List Turn} (high : s.rstN = true)
    (p : s.block.phase = .assert) (reset : s.block.op = 0xC0#8)
    (onAgenda : s.agenda = .sequencer :: .transport reply :: .sequencer :: .settleTimer :: rest) :
    runFor 4 s = .next { s with
      block := (s.block.assert.exchanges [reply]).deassert.endSettle
      trace := s.trace ++ [.csLow, .xchg 0xC0#8 reply, .csHigh]
      agenda := rest } := by
  have oneByte : s.block.assert.frame = [0xC0#8] := by simp [Block.frame, frame, reset]
  have sent : (s.block.assert.exchanges [reply]).phase = .deassert :=
    Block.exchanges_phase rfl (List.cons_ne_nil reply []) (by rw [oneByte]; rfl)
  have settling : (s.block.assert.exchanges [reply]).deassert.phase = .settle := by simp [reset]
  have exchanges := runFor_transport (b := s.block.assert) (tr := s.trace ++ [.csLow]) (replies := [reply])
    (rest := .sequencer :: .settleTimer :: rest) high (by rw [oneByte]; rfl) fun _ => rfl
  rw [runFor_succ 3 (step_assert high onAgenda p)]
  refine (runFor_add 2 exchanges).trans ?_
  rw [runFor_succ 1 (step_deassert (by exact high) rfl sent),
    runFor_succ 0 (step_endSettle (by exact high) rfl settling)]
  simp [runFor, oneByte]

/-- INIT runs from its write to READY in 7 steps: this is the whole state after it (R93 to R96, R126). -/
theorem runFor_init {s : State} {clr : Bool} {ignored : BitVec 30} {line : IntLine} {reply : Byte} {rest : List Turn}
    (high : s.rstN = true) (idle : s.block.phase = .idle)
    (onAgenda : s.agenda = .host (encode (.init clr ignored)) line :: .sequencer :: .sequencer :: .sequencer ::
      .transport reply :: .sequencer :: .settleTimer :: rest) :
    runFor 7 s = .next { s with
      block := s.block.init clr reply
      trace := s.trace ++ [.csLow, .xchg 0xC0#8 reply, .csHigh]
      intLine := line
      agenda := rest } :=
  (runFor_add 4 (runFor_initSetup high idle onAgenda)).trans (runFor_resetFrame high rfl rfl rfl)

/-- A Reset frame captures nothing, so the run of INIT leaves RESULT alone and RVALID cleared (R53, R93). -/
theorem Block.init_result_rvalid (clr : Bool) (reply : Byte) (b : Block) :
    (b.init clr reply).result = b.result ∧ (b.init clr reply).rvalid = false := by
  have capturesNone : capIdx 0xC0#8 = none := rfl
  cases clr <;> simp [init, initSetup, capturesNone]

/-- Settles O48: each clause is read off the whole state after the run. -/
theorem initRunsTheResetFrame : Obligations.InitRunsTheResetFrame := by
  intro s clr ignored line reply rest high idle onAgenda
  obtain ⟨result, rvalid⟩ := Block.init_result_rvalid clr reply s.block
  exact ⟨_, runFor_init high idle onAgenda, rfl, rfl, rfl, rfl, rfl, rfl, rvalid, result, rfl⟩

end Sys2Proof.Machine
end

section
/-! SUPPORT. The rejections (60_exceptions.md): a write while the phase is not IDLE, and a CMD write before initialisation
(R100 to R104). -/

namespace Sys2Proof.Machine

/-- A CMD row while the phase is not IDLE is rejected as busy, whatever its OP and whatever READY (R101, R104). -/
theorem exec_cmd_busy {i : Instr} {op a v d : Byte} {s : State} (fields : cmdFields i = some (op, a, v, d))
    (busy : s.block.phase ≠ .idle) : exec i s = .next (raise .busy s) := by
  rw [exec_of_cmdFields fields, cmdWrite_busy busy]

/-- A CMD row in IDLE with READY = 0 is rejected as not ready, whatever its OP (R102, R104). -/
theorem exec_cmd_notReady {i : Instr} {op a v d : Byte} {s : State} (fields : cmdFields i = some (op, a, v, d))
    (idle : s.block.phase = .idle) (notReady : s.block.ready = false) : exec i s = .next (raise .notReady s) := by
  rw [exec_of_cmdFields fields, cmdWrite_notReady idle notReady]

/-- INIT while the phase is not IDLE is rejected as busy, with CLR_ERR applied first where its bit is set (R92, R101). -/
theorem exec_init_busy {s : State} (clr : Bool) (ignored : BitVec 30) (busy : s.block.phase ≠ .idle) :
    exec (.init clr ignored) s = .next (raise .busy (if clr then clearErrors s else s)) := by
  cases clr with
  | false => exact congrArg Host.Outcome.next (initRequest_busy busy)
  | true => exact congrArg Host.Outcome.next (initRequest_busy (s := clearErrors s) busy)

/-- Settles O14: a CMD row and INIT both raise ERR_BUSY, and CLR_ERR, applied first, leaves that flag set. -/
theorem writeWhileBusyIsRejected : Obligations.WriteWhileBusyIsRejected :=
  ⟨fun _ _ _ _ _ _ fields busy => exec_cmd_busy fields busy,
    fun ignored _ busy => ⟨exec_init_busy false ignored busy, exec_init_busy true ignored busy⟩⟩

/-- Settles O15: of the two causes that then hold of an unsupported OP, ERR_NOT_READY is checked first. -/
theorem commandBeforeInitIsRejected : Obligations.CommandBeforeInitIsRejected :=
  fun _ _ _ _ _ _ fields idle notReady => exec_cmd_notReady fields idle notReady

end Sys2Proof.Machine
end
